-- ==== Sys2Proof/Word.lean ====
section
/-!
DEFINITION. The plain names the rest of the model is written in: the byte, the decode formats, the decoder's state.

The block has no word wider than a byte in any storage space (20_memory R67), so there is no machine word here.
-/

namespace Sys2Proof

/-- 8 bits; bit 0 is the least significant (00_scope R10). -/
abbrev Byte := BitVec 8

/-- The tag of the frame state machine (10_state R28). -/
inductive IngState where
  | idle
  | receiving
deriving DecidableEq, Repr

/-- The code of `ing_state` in a format K word: IDLE is 0, RECEIVING is 1 (10_state R28, 30_encoding R90). -/
def IngState.code : IngState → Bool
  | .idle => false
  | .receiving => true

/-- The state a code stands for. -/
def IngState.ofCode : Bool → IngState
  | false => .idle
  | true => .receiving

/-- The five decode formats; each names the agent whose next operation it selects (30_encoding R90). -/
inductive Format where
  /-- PRODUCER, 10 bits. -/
  | p
  /-- CONSUMER, 12 bits. -/
  | k
  /-- SCANNER, 3 bits. -/
  | s
  /-- TIMER, 1 bit. -/
  | x
  /-- RESET, 1 bit. -/
  | z
deriving DecidableEq, Repr

/-- The width in bits of a format (30_encoding R90). -/
def Format.width : Format → Nat
  | .p => 10
  | .k => 12
  | .s => 3
  | .x => 1
  | .z => 1

end Sys2Proof
end

