-- ==== Sys2Proof/Config.lean ====
section
/-!
DEFINITION. What an implementation fixes, what the outside supplies, and the free values.
-/

namespace Sys2Proof

/-- The two parameters the spec leaves open and "the model takes as an argument" (00_scope R6, R7; D3, D13).
State carries one value of this type and no step writes it, so a statement about every state holds for every value
of both. -/
structure Config.Params where
  /-- `C`, the FIFO capacity in bytes, any integer at least 1; observed 32 and 128. -/
  capacity : Nat
  /-- `Z_BLANK_ON_ENTRY`: does a firing blank PZ before its rows? -/
  zBlankOnEntry : Bool
deriving DecidableEq, Repr

/-- The parameters of `State.reset`. DESIGN CHOICE (assumption 2; unsafe for a statement about `State.reset` alone): `C` is
the first of the two observed capacities, and `Z_BLANK_ON_ENTRY` the value the spec recommends. -/
def Config.resetParams : Config.Params := { capacity := 32, zBlankOnEntry := true }

/-- `SOF`, the start-of-frame marker (00_scope R5). UNVERIFIED against the firmware (U1; assumption 14; unsafe). -/
def Config.sof : Byte := 0xF2#8

/-- One agent's turn together with the input pins it sees: a step of a schedule (30_encoding R100), extended with the
turns in which a pin is low, so that the rows P_IDLE and Z_IDLE have a turn too. -/
inductive Stimulus where
  /-- PRODUCER's turn with the pins `rx_valid` and `rx_data`; `RX hh` is `rx true hh`. -/
  | rx (valid : Bool) (data : Byte)
  /-- CONSUMER's turn: `CONSUME`. -/
  | consume
  /-- SCANNER's turn: `TICK`. -/
  | tick
  /-- TIMER's turn: `EXPIRE`. -/
  | expire
  /-- RESET's turn with the pin `rst`; the schedule step `RESET` is `rst true`. -/
  | rst (asserted : Bool)
deriving DecidableEq, Repr, Inhabited

/-- FREE VALUE: which agent moves next when the schedule held in State is empty, and what its pins carry. The spec admits
every interleaving (00_scope R14) and any host (60_exceptions R212), so nothing constrains it. Safe (assumption 1). -/
opaque Config.freeStimulus : Nat → Stimulus

/-- FREE VALUE: the field `head` of a format K word when the cell at `rd_idx` holds no value, by index. The spec gives `head`
a meaning only when the FIFO is not empty (30_encoding R90). Safe (assumption 7). -/
opaque Config.freeHead : Nat → Byte

end Sys2Proof
end

