-- ==== Sys2Proof/Machine/State.lean ====
section
/-!
DEFINITION. The state of the block as plain data, its reasons to stop, and the state after reset.

The spec's state record is 10_state R44; `cfg`, `trace`, `sched` and `freeCount` are the model's own fields (INVENTORY.md).
-/

namespace Sys2Proof.Machine

open Sys2Proof

/-- The three output ports (00_scope R13, 10_state R37). -/
inductive Port where
  | px
  | py
  | pz
deriving DecidableEq, Repr

/-- The events of the output trace (00_scope R13). -/
inductive Event where
  /-- `PORT(p, v)`: port `p` takes the value `v`. -/
  | port (p : Port) (v : Byte)
  /-- `HOLD(y)`: the settle hold of row `y`. -/
  | hold (y : Fin 8)
  /-- `DROP(b)`: byte `b` was refused by a full FIFO; the pin `rx_drop`. -/
  | drop (b : Byte)
  /-- `SWAP`: a swap was committed; the pin `swap_evt`. -/
  | swap
  /-- `TRELOAD`: the timer was reloaded. -/
  | tReload
deriving DecidableEq, Repr

/-- FIFO storage: the cells that hold a value, by strictly rising index; an unlisted cell holds no value (10_state R31, R44). -/
abbrev Memory := List Host.Cell

/-- One bank of the grid store: 8 layers of 8 row registers, `bank[z][y]` (10_state R20). -/
abbrev Bank := Vector (Vector Byte 8) 8

/-- The grid store `G[b][z][y]`: two banks (10_state R20). -/
abbrev Grid := Vector Bank 2

/-- The state of the block. -/
structure State where
  /-- The parameters `C` and `Z_BLANK_ON_ENTRY`; no step writes them (00_scope R6, R7). -/
  cfg : Config.Params
  /-- The 128 row registers (10_state R20); bit `x` of a row is voxel `x` (R22). -/
  grid : Grid
  /-- `front_sel`: the front bank is `G[front_sel]` (10_state R23). -/
  frontSel : Fin 2
  /-- `swap_pending` (10_state R30). -/
  swapPending : Bool
  /-- `ing_state` (10_state R28). -/
  ingState : IngState
  /-- `rcv_cnt` (10_state R29). -/
  rcvCnt : Fin 64
  /-- `mem[0..C-1]` (10_state R31). -/
  mem : Memory
  /-- `rd_idx` (10_state R32). -/
  rdIdx : Nat
  /-- `wr_idx` (10_state R32). -/
  wrIdx : Nat
  /-- `count` (10_state R33). -/
  count : Nat
  /-- `drop_cnt` (10_state R36). -/
  dropCnt : BitVec 16
  /-- `layer_cursor` (10_state R26). -/
  layerCursor : Fin 8
  /-- `PX` (10_state R37). -/
  px : Byte
  /-- `PY` (10_state R37). -/
  py : Byte
  /-- `PZ` (10_state R37). -/
  pz : Byte
  /-- `tick_pending` (10_state R38). -/
  tickPending : Bool
  /-- The output trace, oldest event first (00_scope R13); no operation reads it. -/
  trace : List Event
  /-- The turns to come, next first (30_encoding R100). The model's own (assumption 1). -/
  sched : List Stimulus
  /-- How many turns were free choices so far. The model's own (assumption 1). -/
  freeCount : Nat
deriving DecidableEq, Repr

/-- Why the machine stops. The block itself never does (60_exceptions R200): both reasons are raised only in states that no
run reaches. -/
inductive Fault where
  /-- Raised by POP when the cell at `rd_idx` holds no value (U9 asks that such a read be visible). Safe (assumption 3). -/
  | unwrittenCell (index : Nat)
  /-- Raised by an access to FIFO storage at an index outside `[0,C)`, which names no cell (20_memory R61). Safe (assumption 4). -/
  | noSuchCell (index : Nat)
deriving DecidableEq, Repr

/-- Why an instruction is given no meaning. -/
inductive Refusal where
  /-- Raised by an arm of `exec` whose instruction has no meaning yet; no arm does. Safe. -/
  | notModelled (mnemonic : String)
  /-- Raised by a meaning when the operation is handed to `exec` in a state whose decode word does not select it; such a
  step is not a run of the block (30_encoding R100), and `step` never takes one. Safe (assumption 6). -/
  | notSelected (mnemonic : String)
deriving DecidableEq, Repr

/-- A bank with every row at one value. -/
def Bank.filled (v : Byte) : Bank := Vector.replicate 8 (Vector.replicate 8 v)

/-- The machine right after reset: the table of 10_state R43, with an empty trace (70_reset R243), no FIFO cell written,
the parameters of `Config.resetParams` and an empty schedule. -/
def State.reset : State where
  cfg := Config.resetParams
  grid := Vector.replicate 2 (Bank.filled 0x00#8)
  frontSel := 0
  swapPending := false
  ingState := .idle
  rcvCnt := 0
  mem := []
  rdIdx := 0
  wrIdx := 0
  count := 0
  dropCnt := 0#16
  layerCursor := 0
  px := 0x00#8
  py := 0xFF#8
  pz := 0x00#8
  tickPending := false
  trace := []
  sched := []
  freeCount := 0

end Sys2Proof.Machine
end

