-- ==== Sys2Proof/Machine/Flags.lean ====
section
/-!
DEFINITION. The derived status flags and the output pins.

The block has no condition codes; its flags are functions of `count`, and no operation writes one but by changing `count`
(10_state R35).
-/

namespace Sys2Proof.Machine

open Sys2Proof

/-- `empty = (count = 0)` (10_state R35, 43_fifo R184). -/
def State.empty (s : State) : Bool := s.count == 0

/-- `full = (count = C)` (10_state R35, 43_fifo R184). -/
def State.full (s : State) : Bool := s.count == s.cfg.capacity

/-- `cmd_pending = (count ≠ 0)`: any stored byte, marker or not (10_state R35, 41_scanner R152). -/
def State.cmdPending (s : State) : Bool := s.count != 0

/-- The output pins that hold a level (10_state R42). -/
structure Pins where
  px : Byte
  py : Byte
  pz : Byte
  cmdPending : Bool
  dropCnt : BitVec 16
deriving DecidableEq, Repr

/-- The levels on the output pins in a state (10_state R37, R42). -/
def State.pins (s : State) : Pins :=
  { px := s.px, py := s.py, pz := s.pz, cmdPending := s.cmdPending, dropCnt := s.dropCnt }

/-- Is an event the drop of a byte? -/
def Event.isDrop : Event → Bool
  | .drop _ => true
  | .port _ _ | .hold _ | .swap | .tReload => false

/-- Is an event the commit of a swap? -/
def Event.isSwap : Event → Bool
  | .swap => true
  | .port _ _ | .hold _ | .drop _ | .tReload => false

/-- The pulse pin `rx_drop` over a step that emitted these events (10_state R42). -/
def rxDropPulse (emitted : List Event) : Bool := emitted.any Event.isDrop

/-- The pulse pin `swap_evt` over a step that emitted these events (10_state R42). -/
def swapEvtPulse (emitted : List Event) : Bool := emitted.any Event.isSwap

end Sys2Proof.Machine
end

