-- ==== Sys2Proof/Machine/Operands.lean ====
section
/-!
DEFINITION. Operand assembly, arithmetic primitives, port patterns, and the derived fields of the decode words.
-/

namespace Sys2Proof.Machine

open Sys2Proof

/-! ### Arithmetic (00_scope R11, 43_fifo R188) -/

/-- `(i + 1) mod C`, the increment of the FIFO indices. -/
def nextIndex (i capacity : Nat) : Nat := (i + 1) % capacity

/-- `(L + 1) mod 8`, the increment of the layer cursor. -/
def nextLayer (z : Fin 8) : Fin 8 := ⟨(z.val + 1) % 8, Nat.mod_lt _ (by decide)⟩

/-- `rcv_cnt + 1`, applied only below 63 (42_ingest R164); the modulus keeps it in its 6 bits. -/
def nextReceived (n : Fin 64) : Fin 64 := ⟨(n.val + 1) % 64, Nat.mod_lt _ (by decide)⟩

/-- `sat16(v + 1)` on a 16-bit counter. -/
def satSucc16 (v : BitVec 16) : BitVec 16 := BitVec.ofNat 16 (min (v.toNat + 1) 0xFFFF)

/-! ### The grid position of a payload byte (30_encoding R92, 20_memory R65) -/

/-- `z = n div 8`. -/
def payloadLayer (n : Fin 64) : Fin 8 := ⟨n.val / 8, by omega⟩

/-- `y = n mod 8`. -/
def payloadRow (n : Fin 64) : Fin 8 := ⟨n.val % 8, by omega⟩

/-! ### Port patterns (30_encoding R94, R95, R96; blanks 41_scanner R141) -/

/-- PY selecting row `y`: one-cold, `~(1 << y)`. -/
def rowSelect (y : Fin 8) : Byte := ~~~(1#8 <<< y.val)

/-- PZ selecting layer `z`: one-hot, `1 << z`. -/
def layerSelect (z : Fin 8) : Byte := 1#8 <<< z.val

/-- PX driving no column. -/
def blankX : Byte := 0x00#8

/-- PY selecting no row. -/
def blankY : Byte := 0xFF#8

/-- PZ selecting no layer. -/
def blankZ : Byte := 0x00#8

/-! ### Banks (10_state R23) -/

/-- The bank in the back role: `front_sel xor 1`. -/
def otherBank (b : Fin 2) : Fin 2 := b ^^^ 1

/-- The bank written `B`. -/
def State.backSel (s : State) : Fin 2 := otherBank s.frontSel

/-! ### Derived fields of the decode words (30_encoding R90) -/

/-- `last = (rcv_cnt = 63)`. -/
def State.last (s : State) : Bool := s.rcvCnt == 63

/-- `wrap = (layer_cursor = 7)`. -/
def State.wrap (s : State) : Bool := s.layerCursor == 7

end Sys2Proof.Machine
end

