-- ==== Sys2Proof/Machine/Ops.lean ====
section
/-!
DEFINITION. The named operations over the storage spaces and registers, which every meaning is written in.

There is no operation for taking an exception and none for returning from one: the block raises no exception, saves no
state, changes no mode and vectors nowhere (60_exceptions R200, R205, R206).
-/

namespace Sys2Proof.Machine

open Sys2Proof

/-! ### FIFO storage (20_memory R61, 10_state R31) -/

/-- What a cell that no PUSH has written reads as: nothing (10_state R44; assumption 3). -/
def Memory.unlisted : Option Byte := none

/-- The byte a cell holds. -/
def Memory.read : Memory → Nat → Option Byte
  | [], _ => Memory.unlisted
  | (k, v) :: rest, a => if k = a then some v else Memory.read rest a

/-- Store a byte in a cell, keeping the cells in rising order. -/
def Memory.write : Memory → Nat → Byte → Memory
  | [], a, b => [(a, b)]
  | (k, v) :: rest, a, b =>
    if a < k then (a, b) :: (k, v) :: rest
    else if a = k then (a, b) :: rest
    else (k, v) :: Memory.write rest a b

/-- The canonical form: indices strictly rising. No entry can equal what an unlisted cell reads as. -/
abbrev Memory.wf (m : Memory) : Prop := m.Pairwise fun c d => c.1 < d.1

/-- `MemRead(addr, 1)` (00_scope R12). -/
def State.memRead (s : State) (a : Nat) : Except Fault Byte :=
  if a < s.cfg.capacity then
    match s.mem.read a with
    | some b => .ok b
    | none => .error (.unwrittenCell a)
  else .error (.noSuchCell a)

/-- `MemWrite(addr, 1, v)` (00_scope R12). -/
def State.memWrite (s : State) (a : Nat) (v : Byte) : Except Fault State :=
  if a < s.cfg.capacity then .ok { s with mem := s.mem.write a v }
  else .error (.noSuchCell a)

/-! ### The grid store (10_state R20, R21) -/

/-- Read the row register `G[b][z][y]`. -/
def Grid.row (g : Grid) (b : Fin 2) (z y : Fin 8) : Byte := ((Vector.get g b).get z).get y

/-- Write the row register `G[b][z][y]`. -/
def Grid.setRow (g : Grid) (b : Fin 2) (z y : Fin 8) (v : Byte) : Grid :=
  Vector.set g b (Vector.set (Vector.get g b) z (Vector.set ((Vector.get g b).get z) y v))

/-- GRID.CLEAR: every row of one bank takes one value, in one transition (40_grid_swap R122). -/
def Grid.clear (g : Grid) (b : Fin 2) (v : Byte) : Grid := Vector.set g b (Bank.filled v)

/-- Is voxel `(x, y, z)` of bank `b` lit? Bit `x` of `G[b][z][y]` (10_state R22, 20_memory R66). -/
def Grid.voxel (g : Grid) (b : Fin 2) (x y z : Fin 8) : Bool := (g.row b z y).getLsbD x.val

/-- `F[z][y]`, a row of the front bank (00_scope R12). -/
def State.frontRow (s : State) (z y : Fin 8) : Byte := s.grid.row s.frontSel z y

/-- `B[z][y]`, a row of the back bank (00_scope R12). -/
def State.backRow (s : State) (z y : Fin 8) : Byte := s.grid.row s.backSel z y

/-- GRID.WRITE_ROW: replace one row of the back bank (40_grid_swap R121). -/
def State.writeRow (s : State) (z y : Fin 8) (v : Byte) : State :=
  { s with grid := s.grid.setRow s.backSel z y v }

/-! ### The output trace and the ports (00_scope R13, 10_state R37) -/

/-- `emit e`. -/
def State.emit (s : State) (e : Event) : State := { s with trace := s.trace ++ [e] }

/-- `PX <- v`, with its event. -/
def State.drivePx (s : State) (v : Byte) : State := { s.emit (.port .px v) with px := v }

/-- `PY <- v`, with its event. -/
def State.drivePy (s : State) (v : Byte) : State := { s.emit (.port .py v) with py := v }

/-- `PZ <- v`, with its event. -/
def State.drivePz (s : State) (v : Byte) : State := { s.emit (.port .pz v) with pz := v }

/-! ### The other registers -/

/-- Write the decoder's position: `ing_state` and `rcv_cnt` (10_state R28, R29). -/
def State.setDecoder (s : State) (ing : IngState) (n : Fin 64) : State :=
  { s with ingState := ing, rcvCnt := n }

/-- Write `tick_pending` (10_state R38). -/
def State.setTickPending (s : State) (v : Bool) : State := { s with tickPending := v }

/-- Write `layer_cursor` (10_state R26). -/
def State.setCursor (s : State) (z : Fin 8) : State := { s with layerCursor := z }

/-- Count one dropped byte: `drop_cnt <- sat16(drop_cnt + 1)` (10_state R36). -/
def State.countDrop (s : State) : State := { s with dropCnt := satSucc16 s.dropCnt }

/-! ### The FIFO (43_fifo R181, R183) -/

/-- After the byte is stored: `wr_idx <- (wr_idx + 1) mod C`, `count <- count + 1`. -/
def State.advanceWrite (s : State) : State :=
  { s with wrIdx := nextIndex s.wrIdx s.cfg.capacity, count := s.count + 1 }

/-- After the byte is read: `rd_idx <- (rd_idx + 1) mod C`, `count <- count − 1`. -/
def State.advanceRead (s : State) : State :=
  { s with rdIdx := nextIndex s.rdIdx s.cfg.capacity, count := s.count - 1 }

/-- Store a byte: the content first, then index and count (43_fifo R181, 20_memory R75). -/
def State.fifoPush (s : State) (b : Byte) : Except Fault State :=
  match s.memWrite s.wrIdx b with
  | .ok t => .ok t.advanceWrite
  | .error f => .error f

/-- POP: nothing when the FIFO is empty, else the oldest byte and the state without it (43_fifo R183). -/
def State.fifoPop (s : State) : Except Fault (Option (Byte × State)) :=
  if s.count = 0 then .ok none
  else
    match s.memRead s.rdIdx with
    | .ok b => .ok (some (b, s.advanceRead))
    | .error f => .error f

/-! ### The swap coordinator (40_grid_swap R124, R125) -/

/-- SWAP_REQUEST: `swap_pending <- 1`. -/
def State.swapRequest (s : State) : State := { s with swapPending := true }

/-- SWAP_COMMIT: the banks exchange roles, the new back bank is cleared, `swap_pending <- 0`, and SWAP is emitted. -/
def State.swapCommit (s : State) : State :=
  State.emit { s with
    frontSel := otherBank s.frontSel
    grid := s.grid.clear s.frontSel 0x00#8
    swapPending := false } .swap

/-! ### Selection -/

/-- An operation whose agent has it selected by `cond`; outside that it is no step of the block (30_encoding R100). -/
def whenSelected (mnemonic : String) (cond : Bool) (run : Host.Outcome State Fault Refusal) :
    Host.Outcome State Fault Refusal :=
  if cond then run else .refused (.notSelected mnemonic)

end Sys2Proof.Machine
end

