-- ==== Sys2Proof/Machine/Fifo.lean ====
section
/-!
DEFINITION. The PRODUCER's operations: P_IDLE, PUSH, PUSH_DROP (43_fifo R180 to R182).
-/

namespace Sys2Proof.Machine

open Sys2Proof

/-- P_IDLE: no byte is presented, the PRODUCER does nothing (43_fifo R180; assumption 5). -/
def execPIdle (_full : Bool) (_rxData : Byte) (s : State) : Host.Outcome State Fault Refusal := .next s

/-- PUSH, selected when `count < C`: store `b` at `wr_idx`, advance `wr_idx` and `count` (43_fifo R181). -/
def execPush (b : Byte) (s : State) : Host.Outcome State Fault Refusal :=
  whenSelected "PUSH" (decide (s.count < s.cfg.capacity)) <|
    match s.fifoPush b with
    | .ok t => .next t
    | .error f => .fault f

/-- PUSH_DROP, selected when `full`: count the drop and emit DROP; the stored bytes are kept (43_fifo R182). -/
def execPushDrop (b : Byte) (s : State) : Host.Outcome State Fault Refusal :=
  whenSelected "PUSH_DROP" s.full <| .next (s.countDrop.emit (.drop b))

end Sys2Proof.Machine
end

