-- ==== Sys2Proof/Machine/Ingest.lean ====
section
/-!
DEFINITION. The CONSUMER's operations: K_HOLD, K_EMPTY and the four forms of CONSUME (42_ingest R160 to R165).
-/

namespace Sys2Proof.Machine

open Sys2Proof

/-- CONSUME: one transition made of POP and the decoder's step on the popped byte (42_ingest R160, R161). `form` says when
this form applies to the popped byte, `act` is what follows the POP. -/
def consumeForm (mnemonic : String) (form : Byte → Bool) (act : Byte → State → State) (s : State) :
    Host.Outcome State Fault Refusal :=
  whenSelected mnemonic (!s.swapPending && !s.empty) <|
    match s.fifoPop with
    | .ok (some (b, t)) => whenSelected mnemonic (form b) (.next (act b t))
    | .ok none => .refused (.notSelected mnemonic)
    | .error f => .fault f

/-- K_HOLD, selected when `swap_pending = 1`: the CONSUMER is held and nothing changes (42_ingest R160, 40_grid_swap R128;
assumption 5). -/
def execKHold (_nonempty : Bool) (_ing : IngState) (_last : Bool) (_head : Byte) (s : State) :
    Host.Outcome State Fault Refusal :=
  whenSelected "K_HOLD" s.swapPending (.next s)

/-- K_EMPTY, selected when no swap is pending and the FIFO is empty: nothing to pop, nothing changes (42_ingest R160;
assumption 5). -/
def execKEmpty (_ing : IngState) (_last : Bool) (_head : Byte) (s : State) : Host.Outcome State Fault Refusal :=
  whenSelected "K_EMPTY" (!s.swapPending && s.empty) (.next s)

/-- SOF, selected in IDLE by the marker: RECEIVING from byte 0 (42_ingest R162). -/
def execSof (_last : Bool) (s : State) : Host.Outcome State Fault Refusal :=
  consumeForm "SOF" (fun b => s.ingState == .idle && b == Config.sof)
    (fun _ t => t.setDecoder .receiving 0) s

/-- IGN, selected in IDLE by any other byte: the byte is discarded (42_ingest R163). -/
def execIgn (_last : Bool) (d : Byte) (s : State) : Host.Outcome State Fault Refusal :=
  consumeForm "IGN" (fun b => s.ingState == .idle && b == d && b != Config.sof) (fun _ t => t) s

/-- DATA, selected in RECEIVING below byte 63 by any byte: write row `n` of the back bank, count it (42_ingest R164). -/
def execData (d : Byte) (s : State) : Host.Outcome State Fault Refusal :=
  consumeForm "DATA" (fun b => s.ingState == .receiving && !s.last && b == d)
    (fun b t => (t.writeRow (payloadLayer t.rcvCnt) (payloadRow t.rcvCnt) b).setDecoder t.ingState
      (nextReceived t.rcvCnt)) s

/-- DATA_LAST, selected in RECEIVING at byte 63 by any byte: write row (7, 7), request the swap, return to IDLE
(42_ingest R165). -/
def execDataLast (d : Byte) (s : State) : Host.Outcome State Fault Refusal :=
  consumeForm "DATA_LAST" (fun b => s.ingState == .receiving && s.last && b == d)
    (fun b t => ((t.writeRow 7 7 b).swapRequest).setDecoder .idle 0) s

end Sys2Proof.Machine
end

