-- ==== Sys2Proof/Machine/Reset.lean ====
section
/-!
DEFINITION. The RESET agent's operations: RESET and Z_IDLE (70_reset R230).
-/

namespace Sys2Proof.Machine

open Sys2Proof

/-- The transition of RESET: both banks cleared and every register at its reset value; `mem` is not written, and the trace
starts empty after it (70_reset R230). The model's own fields `cfg`, `sched` and `freeCount` are no state of the block and
stay (assumption 8). -/
def State.toReset (s : State) : State :=
  { s with
    grid := (s.grid.clear 0 0x00#8).clear 1 0x00#8
    frontSel := 0
    swapPending := false
    ingState := .idle
    rcvCnt := 0
    rdIdx := 0
    wrIdx := 0
    count := 0
    dropCnt := 0#16
    layerCursor := 0
    px := 0x00#8
    py := 0xFF#8
    pz := 0x00#8
    tickPending := false
    trace := [] }

/-- RESET, always enabled (70_reset R230). -/
def execReset (s : State) : Host.Outcome State Fault Refusal := .next s.toReset

/-- Z_IDLE: reset is not asserted, nothing changes (70_reset R230; assumption 5). -/
def execZIdle (s : State) : Host.Outcome State Fault Refusal := .next s

end Sys2Proof.Machine
end

