-- ==== Sys2Proof/Machine/Scanner.lean ====
section
/-!
DEFINITION. The SCANNER's operations: S_IDLE and the firing TICK with its micro-operations (41_scanner R140 to R147).
-/

namespace Sys2Proof.Machine

open Sys2Proof

/-- SCAN.ZBLANK, performed only when `Z_BLANK_ON_ENTRY` (41_scanner R142). -/
def scanZBlank (s : State) : State :=
  if s.cfg.zBlankOnEntry then s.drivePz blankZ else s

/-- SCAN.ROW(f, L, y): columns, row select, hold, deselect, clear (41_scanner R143). -/
def scanRow (f : Fin 2) (z : Fin 8) (s : State) (y : Fin 8) : State :=
  ((((s.drivePx (s.grid.row f z y)).drivePy (rowSelect y)).emit (.hold y)).drivePy blankY).drivePx blankX

/-- The rows of a firing in their order (41_scanner R144). -/
def rowOrder : List (Fin 8) := [0, 1, 2, 3, 4, 5, 6, 7]

/-- Step 1 of a firing: SCAN.ROW for every row, in order. -/
def scanRows (f : Fin 2) (z : Fin 8) (s : State) : State := rowOrder.foldl (scanRow f z) s

/-- SCAN.ZSEL(L): select the layer (41_scanner R145). -/
def scanZSel (z : Fin 8) (s : State) : State := s.drivePz (layerSelect z)

/-- SCAN.ADV(L): advance the cursor, and at its wrap commit a pending swap (41_scanner R146). -/
def scanAdv (z : Fin 8) (s : State) : State :=
  let t := s.setCursor (nextLayer z)
  if z = 7 ∧ t.swapPending = true then t.swapCommit else t

/-- SCAN.RELOAD: the timer is reloaded (41_scanner R147). -/
def scanReload (s : State) : State := s.emit .tReload

/-- TICK: one firing (41_scanner R140). The layer and the front bank are those of the firing's start. -/
def fire (s : State) : State :=
  let z := s.layerCursor
  let f := s.frontSel
  scanReload (scanAdv z (scanZSel z (scanRows f z (scanZBlank (s.setTickPending false)))))

/-- S_IDLE, selected when `tick_pending = 0`: no firing is requested, nothing changes (41_scanner R140; assumption 5). -/
def execSIdle (_wrap _swapPending : Bool) (s : State) : Host.Outcome State Fault Refusal :=
  whenSelected "S_IDLE" (!s.tickPending) (.next s)

/-- TICK, selected when a firing is requested and the cursor is not 7 (41_scanner R140). -/
def execTick (_swapPending : Bool) (s : State) : Host.Outcome State Fault Refusal :=
  whenSelected "TICK" (s.tickPending && !s.wrap) (.next (fire s))

/-- TICK_WRAP, selected when a firing is requested at cursor 7 and no swap is pending (41_scanner R140). -/
def execTickWrap (s : State) : Host.Outcome State Fault Refusal :=
  whenSelected "TICK_WRAP" (s.tickPending && s.wrap && !s.swapPending) (.next (fire s))

/-- TICK_WRAP_SWAP, selected when a firing is requested at cursor 7 with a swap pending (41_scanner R140). -/
def execTickWrapSwap (s : State) : Host.Outcome State Fault Refusal :=
  whenSelected "TICK_WRAP_SWAP" (s.tickPending && s.wrap && s.swapPending) (.next (fire s))

end Sys2Proof.Machine
end

