-- ==== Sys2Proof/Machine/Timer.lean ====
section
/-!
DEFINITION. The TIMER's operations: EXPIRE and X_IDLE (60_exceptions R213, R214).
-/

namespace Sys2Proof.Machine

open Sys2Proof

/-- EXPIRE, selected when `tick_pending = 0`: request a firing (60_exceptions R214). -/
def execExpire (s : State) : Host.Outcome State Fault Refusal :=
  whenSelected "EXPIRE" (!s.tickPending) (.next (s.setTickPending true))

/-- X_IDLE, selected when `tick_pending = 1`: a firing is already requested, nothing changes (60_exceptions R214;
assumption 5). -/
def execXIdle (s : State) : Host.Outcome State Fault Refusal :=
  whenSelected "X_IDLE" s.tickPending (.next s)

end Sys2Proof.Machine
end

