-- ==== Sys2Proof/Syntax.lean ====
section
/-!
DEFINITION. The operations of the block, one constructor per row of the opcode table (30_encoding R98).

A constructor keeps every bit of its decode word that the row does not fix, so that no bit of a word is lost.
-/

namespace Sys2Proof

/-- One operation of the block, in the table's order. -/
inductive Instr where
  /-- P_IDLE, P `0xxxxxxxxx`: no byte presented. -/
  | pIdle (full : Bool) (rxData : Byte)
  /-- PUSH, P `10dddddddd`: store `d`. -/
  | push (d : Byte)
  /-- PUSH_DROP, P `11dddddddd`: the FIFO is full, refuse `d`. -/
  | pushDrop (d : Byte)
  /-- K_HOLD, K `1xxxxxxxxxxx`: the consumer is held until SWAP_COMMIT. -/
  | kHold (nonempty : Bool) (ing : IngState) (last : Bool) (head : Byte)
  /-- K_EMPTY, K `00xxxxxxxxxx`: nothing to pop. -/
  | kEmpty (ing : IngState) (last : Bool) (head : Byte)
  /-- SOF, K `010x11110010`: pop the start-of-frame marker. -/
  | sof (last : Bool)
  /-- IGN, K `010xbbbbbbbb` with `b` not the marker: pop and discard. -/
  | ign (last : Bool) (b : Byte)
  /-- DATA, K `0110bbbbbbbb`: pop and write a row. -/
  | data (b : Byte)
  /-- DATA_LAST, K `0111bbbbbbbb`: pop, write the last row, request the swap. -/
  | dataLast (b : Byte)
  /-- S_IDLE, S `0xx`: no firing requested. -/
  | sIdle (wrap : Bool) (swapPending : Bool)
  /-- TICK, S `10x`: a firing with the cursor in 0..6. -/
  | tick (swapPending : Bool)
  /-- TICK_WRAP, S `110`: a firing at cursor 7, no swap pending. -/
  | tickWrap
  /-- TICK_WRAP_SWAP, S `111`: a firing at cursor 7 with SWAP_COMMIT. -/
  | tickWrapSwap
  /-- EXPIRE, X `0`: the timer expires. -/
  | expire
  /-- X_IDLE, X `1`: a firing is already requested. -/
  | xIdle
  /-- Z_IDLE, Z `0`: reset not asserted. -/
  | zIdle
  /-- RESET, Z `1`. -/
  | reset
deriving DecidableEq, Repr

end Sys2Proof
end

