-- ==== Sys2Proof/Machine/Dispatch.lean ====
section
/-!
DEFINITION. One arm per operation of the block.
-/

namespace Sys2Proof.Machine

open Sys2Proof

def exec (i : Instr) (s : State) : Host.Outcome State Fault Refusal :=
  match i with
  | .pIdle full rxData => Sys2Proof.Machine.execPIdle full rxData s
  | .push d => Sys2Proof.Machine.execPush d s
  | .pushDrop d => Sys2Proof.Machine.execPushDrop d s
  | .kHold nonempty ing last head => Sys2Proof.Machine.execKHold nonempty ing last head s
  | .kEmpty ing last head => Sys2Proof.Machine.execKEmpty ing last head s
  | .sof last => Sys2Proof.Machine.execSof last s
  | .ign last b => Sys2Proof.Machine.execIgn last b s
  | .data b => Sys2Proof.Machine.execData b s
  | .dataLast b => Sys2Proof.Machine.execDataLast b s
  | .sIdle wrap swapPending => Sys2Proof.Machine.execSIdle wrap swapPending s
  | .tick swapPending => Sys2Proof.Machine.execTick swapPending s
  | .tickWrap => Sys2Proof.Machine.execTickWrap s
  | .tickWrapSwap => Sys2Proof.Machine.execTickWrapSwap s
  | .expire => Sys2Proof.Machine.execExpire s
  | .xIdle => Sys2Proof.Machine.execXIdle s
  | .zIdle => Sys2Proof.Machine.execZIdle s
  | .reset => Sys2Proof.Machine.execReset s

end Sys2Proof.Machine
end

