-- ==== Sys2Proof/WellFormed.lean ====
section
/-!
DEFINITION. Which terms of Instr some decode word stands for.
-/

namespace Sys2Proof

/-- The one side condition of the opcode table: IGN is matched only after SOF has failed to match, so its byte is not the
marker (30_encoding R98). Every other term is the reading of some word (R99). -/
def Instr.WellFormed : Instr → Bool
  | .ign _ b => b != Config.sof
  | .pIdle _ _ | .push _ | .pushDrop _ | .kHold _ _ _ _ | .kEmpty _ _ _ | .sof _ | .data _ | .dataLast _
  | .sIdle _ _ | .tick _ | .tickWrap | .tickWrapSwap | .expire | .xIdle | .zIdle | .reset => true

end Sys2Proof
end

