-- ==== Sys2Proof/Decode.lean ====
section
/-!
DEFINITION. Decode words, the decoder, the encoder and the opcode table (30_encoding R90, R98, R99).

A decode word is not stored anywhere in the block: it is the vector of pins and state bits that selects an agent's next
operation. Its format is part of it: formats P, K, S, X and Z number their bits independently.
-/

namespace Sys2Proof

/-- A decode word of one of the five formats (30_encoding R90). -/
inductive DecodeWord where
  | p (w : BitVec 10)
  | k (w : BitVec 12)
  | s (w : BitVec 3)
  | x (w : BitVec 1)
  | z (w : BitVec 1)
deriving DecidableEq, Repr

/-- The format of a word. -/
def DecodeWord.format : DecodeWord → Format
  | .p _ => .p
  | .k _ => .k
  | .s _ => .s
  | .x _ => .x
  | .z _ => .z

/-- The word as a number, bit 0 least significant. -/
def DecodeWord.toNat : DecodeWord → Nat
  | .p w => w.toNat
  | .k w => w.toNat
  | .s w => w.toNat
  | .x w => w.toNat
  | .z w => w.toNat

/-- The word of a format with the low bits of a number. -/
def DecodeWord.ofNat (f : Format) (n : Nat) : DecodeWord :=
  match f with
  | .p => .p (BitVec.ofNat 10 n)
  | .k => .k (BitVec.ofNat 12 n)
  | .s => .s (BitVec.ofNat 3 n)
  | .x => .x (BitVec.ofNat 1 n)
  | .z => .z (BitVec.ofNat 1 n)

/-! ### The fields of each format, most significant first (30_encoding R90) -/

/-- A word of `n` bits in which bit `i` is a flag and every other bit is 0. -/
def flagAt (n i : Nat) (b : Bool) : BitVec n := (BitVec.ofBool b).setWidth n <<< i

/-- `rx_valid[9]`, `full[8]`, `rx_data[7:0]`. -/
def packP (rxValid full : Bool) (rxData : Byte) : BitVec 10 :=
  flagAt 10 9 rxValid ||| flagAt 10 8 full ||| rxData.setWidth 10

/-- `swap_pending[11]`, `nonempty[10]`, `ing_state[9]`, `last[8]`, `head[7:0]`. -/
def packK (swapPending nonempty : Bool) (ing : IngState) (last : Bool) (head : Byte) : BitVec 12 :=
  flagAt 12 11 swapPending ||| flagAt 12 10 nonempty ||| flagAt 12 9 ing.code ||| flagAt 12 8 last ||| head.setWidth 12

/-- `tick_pending[2]`, `wrap[1]`, `swap_pending[0]`. -/
def packS (tickPending wrap swapPending : Bool) : BitVec 3 :=
  flagAt 3 2 tickPending ||| flagAt 3 1 wrap ||| flagAt 3 0 swapPending

/-! ### The decoder -/

/-- Format P: P_IDLE, PUSH, PUSH_DROP. -/
def decodeP (w : BitVec 10) : Instr :=
  let rxData := w.extractLsb' 0 8
  let full := w[8]
  if w[9] then
    if full then .pushDrop rxData else .push rxData
  else .pIdle full rxData

/-- Format K: K_HOLD, K_EMPTY, then the four forms of CONSUME; SOF before IGN (30_encoding R93, R98). -/
def decodeK (w : BitVec 12) : Instr :=
  let head := w.extractLsb' 0 8
  let last := w[8]
  let ing := IngState.ofCode w[9]
  let nonempty := w[10]
  if w[11] then .kHold nonempty ing last head
  else if nonempty then
    match ing with
    | .idle => if head = Config.sof then .sof last else .ign last head
    | .receiving => if last then .dataLast head else .data head
  else .kEmpty ing last head

/-- Format S: S_IDLE, TICK, TICK_WRAP, TICK_WRAP_SWAP. -/
def decodeS (w : BitVec 3) : Instr :=
  if w[2] then
    if w[1] then
      if w[0] then .tickWrapSwap else .tickWrap
    else .tick w[0]
  else .sIdle w[1] w[0]

/-- Format X: EXPIRE when `tick_pending = 0`, else X_IDLE. -/
def decodeX (w : BitVec 1) : Instr :=
  if w[0] then .xIdle else .expire

/-- Format Z: RESET when `rst = 1`, else Z_IDLE. -/
def decodeZ (w : BitVec 1) : Instr :=
  if w[0] then .reset else .zIdle

/-- The operation a decode word selects. It is total: every bit combination is covered by a row (30_encoding R99). -/
def decode : DecodeWord → Instr
  | .p w => decodeP w
  | .k w => decodeK w
  | .s w => decodeS w
  | .x w => decodeX w
  | .z w => decodeZ w

/-- Why a number is no decode word of a format; the spec says nothing of wider numbers (assumption 19). -/
inductive DecodeError where
  /-- The number has a bit set above the format's width. -/
  | tooWide (f : Format) (n : Nat)
deriving DecidableEq, Repr

/-- Decoding any number as a word of a format; a number too wide for the format is rejected by name. -/
def decodeBits (f : Format) (n : Nat) : Except DecodeError Instr :=
  if n < 2 ^ f.width then .ok (decode (DecodeWord.ofNat f n)) else .error (.tooWide f n)

/-! ### The encoder -/

/-- The decode word of a well-formed operation, from the table's patterns (30_encoding R98). -/
def encode : Instr → DecodeWord
  | .pIdle full d => .p (packP false full d)
  | .push d => .p (packP true false d)
  | .pushDrop d => .p (packP true true d)
  | .kHold ne ing last head => .k (packK true ne ing last head)
  | .kEmpty ing last head => .k (packK false false ing last head)
  | .sof last => .k (packK false true .idle last Config.sof)
  | .ign last b => .k (packK false true .idle last b)
  | .data b => .k (packK false true .receiving false b)
  | .dataLast b => .k (packK false true .receiving true b)
  | .sIdle wrap sp => .s (packS false wrap sp)
  | .tick sp => .s (packS true false sp)
  | .tickWrap => .s (packS true true false)
  | .tickWrapSwap => .s (packS true true true)
  | .expire => .x 0#1
  | .xIdle => .x 1#1
  | .zIdle => .z 0#1
  | .reset => .z 1#1

/-! ### The opcode table as data -/

/-- A row of the opcode table: its mnemonic, its format, and its match and mask (30_encoding R98). -/
structure OpcodeRow where
  mnemonic : String
  format : Format
  pattern : Nat
  mask : Nat
deriving DecidableEq, Repr

/-- The rows in the table's order; where two patterns overlap, the earlier row wins (30_encoding R98). -/
def opcodeTable : List OpcodeRow :=
  [ ⟨"P_IDLE", .p, 0x000, 0x200⟩,
    ⟨"PUSH", .p, 0x200, 0x300⟩,
    ⟨"PUSH_DROP", .p, 0x300, 0x300⟩,
    ⟨"K_HOLD", .k, 0x800, 0x800⟩,
    ⟨"K_EMPTY", .k, 0x000, 0xC00⟩,
    ⟨"SOF", .k, 0x4F2, 0xEFF⟩,
    ⟨"IGN", .k, 0x400, 0xE00⟩,
    ⟨"DATA", .k, 0x600, 0xF00⟩,
    ⟨"DATA_LAST", .k, 0x700, 0xF00⟩,
    ⟨"S_IDLE", .s, 0x0, 0x4⟩,
    ⟨"TICK", .s, 0x4, 0x6⟩,
    ⟨"TICK_WRAP", .s, 0x6, 0x7⟩,
    ⟨"TICK_WRAP_SWAP", .s, 0x7, 0x7⟩,
    ⟨"EXPIRE", .x, 0x0, 0x1⟩,
    ⟨"X_IDLE", .x, 0x1, 0x1⟩,
    ⟨"Z_IDLE", .z, 0x0, 0x1⟩,
    ⟨"RESET", .z, 0x1, 0x1⟩ ]

/-- Does a word of a format, as a number, match a row? -/
def OpcodeRow.matchesWord (r : OpcodeRow) (f : Format) (n : Nat) : Bool :=
  r.format == f && n &&& r.mask == r.pattern

/-- The mnemonic of the earliest row a word matches. -/
def tableMnemonic (w : DecodeWord) : Option String :=
  (opcodeTable.find? fun r => r.matchesWord w.format w.toNat).map OpcodeRow.mnemonic

/-- The mnemonic of an operation, as the table spells it. -/
def Instr.mnemonic : Instr → String
  | .pIdle _ _ => "P_IDLE"
  | .push _ => "PUSH"
  | .pushDrop _ => "PUSH_DROP"
  | .kHold _ _ _ _ => "K_HOLD"
  | .kEmpty _ _ _ => "K_EMPTY"
  | .sof _ => "SOF"
  | .ign _ _ => "IGN"
  | .data _ => "DATA"
  | .dataLast _ => "DATA_LAST"
  | .sIdle _ _ => "S_IDLE"
  | .tick _ => "TICK"
  | .tickWrap => "TICK_WRAP"
  | .tickWrapSwap => "TICK_WRAP_SWAP"
  | .expire => "EXPIRE"
  | .xIdle => "X_IDLE"
  | .zIdle => "Z_IDLE"
  | .reset => "RESET"

/-! ### The host's view of the table -/

/-- Try to read a number as a word of one format. -/
def decodeSome (f : Format) (n : Nat) : Option Instr :=
  match decodeBits f n with
  | .ok i => some i
  | .error _ => none

/-- Words of one bit: format X `0` and format Z `1` are read, the two operations among the four rows of one bit. -/
def decodeOneBit (n : Nat) : Option Instr :=
  match n with
  | 0 => decodeSome .x 0
  | 1 => decodeSome .z 1
  | _ => none

/-- The instruction a bare word of `nbits` bits stands for. The table's formats share words, and a bare word does not
say its format, so this reading must choose (DESIGN CHOICE, assumption 9; no step of the machine uses it): an exact
width 10, 12, 3 or 1 names its format; in two bytes a word below `0x400` is read as format P and any other as format K
(every K word below `0x400` is K_EMPTY); in one byte `0` and `1` are read as words of one bit and any other as format S
(every S word below 4 is S_IDLE). -/
def decodeTableWord (nbits w : Nat) : Option Instr :=
  match nbits with
  | 10 => decodeSome .p w
  | 12 => decodeSome .k w
  | 3 => decodeSome .s w
  | 1 => decodeOneBit w
  | 16 => if w < 0x400 then decodeSome .p w else decodeSome .k w
  | 8 => if w < 2 then decodeOneBit w else decodeSome .s w
  | _ => none

end Sys2Proof
end

