-- ==== Sys2Proof/Machine/Fetch.lean ====
section
/-!
DEFINITION. The decode word each agent sees, whose turn is next, and the placing of a word for the next turn.
-/

namespace Sys2Proof.Machine

open Sys2Proof

/-! ### The decode words (30_encoding R90) -/

/-- The field `head = mem[rd_idx]`; where that cell holds no value, a free value (assumption 7). -/
def State.head (s : State) : Byte :=
  match s.mem.read s.rdIdx with
  | some b => b
  | none => Config.freeHead s.rdIdx

/-- The PRODUCER's word: its two pins and `full`. -/
def State.wordP (s : State) (rxValid : Bool) (rxData : Byte) : BitVec 10 := packP rxValid s.full rxData

/-- The CONSUMER's word. -/
def State.wordK (s : State) : BitVec 12 := packK s.swapPending (!s.empty) s.ingState s.last s.head

/-- The SCANNER's word. -/
def State.wordS (s : State) : BitVec 3 := packS s.tickPending s.wrap s.swapPending

/-- The TIMER's word. -/
def State.wordX (s : State) : BitVec 1 := BitVec.ofBool s.tickPending

/-- The RESET agent's word: its pin. -/
def wordZ (rst : Bool) : BitVec 1 := BitVec.ofBool rst

/-- The word that selects the operation of the agent whose turn it is. -/
def fetchWord (t : Stimulus) (s : State) : DecodeWord :=
  match t with
  | .rx valid byte => .p (s.wordP valid byte)
  | .consume => .k s.wordK
  | .tick => .s s.wordS
  | .expire => .x s.wordX
  | .rst asserted => .z (wordZ asserted)

/-- The operation a turn performs in a state. -/
def fetch (t : Stimulus) (s : State) : Instr := decode (fetchWord t s)

/-! ### Whose turn it is (00_scope R14; assumption 1) -/

/-- Take the next turn off the schedule; when the schedule is empty the turn is a free value. -/
def nextTurn (s : State) : Stimulus × State :=
  match s.sched with
  | t :: rest => (t, { s with sched := rest })
  | [] => (Config.freeStimulus s.freeCount, { s with freeCount := s.freeCount + 1 })

/-! ### Placing a word (assumption 10) -/

/-- The turn in which an operation is performed. -/
def turnOf : Instr → Stimulus
  | .pIdle _ d => .rx false d
  | .push d => .rx true d
  | .pushDrop d => .rx true d
  | .kHold _ _ _ _ | .kEmpty _ _ _ | .sof _ | .ign _ _ | .data _ | .dataLast _ => .consume
  | .sIdle _ _ | .tick _ | .tickWrap | .tickWrapSwap => .tick
  | .expire | .xIdle => .expire
  | .zIdle => .rst false
  | .reset => .rst true

/-- Give the FIFO a number of stored bytes, with `wr_idx` to match `rd_idx` (10_state R34). -/
def State.placeCount (s : State) (n : Nat) : State :=
  { s with count := n, wrIdx := (s.rdIdx + n) % s.cfg.capacity }

/-- Make the bit `full` read as given: full to capacity, or empty where it was full. -/
def State.placeFull (s : State) : Bool → State
  | true => if s.full then s else s.placeCount s.cfg.capacity
  | false => if s.full then s.placeCount 0 else s

/-- Make the bit `nonempty` read as given: one byte where it was empty, or none. -/
def State.placeNonempty (s : State) : Bool → State
  | true => if s.empty then s.placeCount 1 else s
  | false => if s.empty then s else s.placeCount 0

/-- A `rcv_cnt` of which the bit `last` reads as given. -/
def State.receivedFor (s : State) : Bool → Fin 64
  | true => 63
  | false => if s.last then 0 else s.rcvCnt

/-- A `layer_cursor` of which the bit `wrap` reads as given. -/
def State.cursorFor (s : State) : Bool → Fin 8
  | true => 7
  | false => if s.wrap then 0 else s.layerCursor

/-- Make the state bits of a format K word read as given. -/
def State.placeK (s : State) (swapPending nonempty : Bool) (ing : IngState) (last : Bool) (head : Byte) : State :=
  { s.placeNonempty nonempty with
    swapPending := swapPending
    ingState := ing
    rcvCnt := s.receivedFor last
    mem := s.mem.write s.rdIdx head }

/-- Make the state bits of a format S word read as given. -/
def State.placeS (s : State) (tickPending wrap swapPending : Bool) : State :=
  { s with
    tickPending := tickPending
    layerCursor := s.cursorFor wrap
    swapPending := swapPending }

/-- Make the state bits an operation's decode word carries read as that word has them. -/
def State.placeBits (s : State) : Instr → State
  | .pIdle full _ => s.placeFull full
  | .push _ => s.placeFull false
  | .pushDrop _ => s.placeFull true
  | .kHold ne ing last head => s.placeK true ne ing last head
  | .kEmpty ing last head => s.placeK false false ing last head
  | .sof last => s.placeK false true .idle last Config.sof
  | .ign last b => s.placeK false true .idle last b
  | .data b => s.placeK false true .receiving false b
  | .dataLast b => s.placeK false true .receiving true b
  | .sIdle wrap sp => s.placeS false wrap sp
  | .tick sp => s.placeS true false sp
  | .tickWrap => s.placeS true true false
  | .tickWrapSwap => s.placeS true true true
  | .expire => s.setTickPending false
  | .xIdle => s.setTickPending true
  | .zIdle | .reset => s

/-- Make an operation the next one: its agent's turn stands first in the schedule and the state bits of its word are set. -/
def State.placeInstr (s : State) (i : Instr) : State :=
  let t := s.placeBits i
  { t with sched := turnOf i :: t.sched }

end Sys2Proof.Machine
end

