-- ==== Sys2Proof/Machine/Step.lean ====
section
/-!
DEFINITION. One step of the machine: one agent's turn (00_scope R14).
-/

namespace Sys2Proof.Machine

open Sys2Proof

/-- Take the next turn and perform the operation that its agent's decode word selects. -/
def step (s : State) : Host.Outcome State Fault Refusal :=
  exec (fetch (nextTurn s).1 (nextTurn s).2) (nextTurn s).2

/-- `s` with the instruction a bare word stands for placed as the next one (assumption 10). -/
def State.withFetchWord (s : State) (nbits w : Nat) : State :=
  match decodeTableWord nbits w with
  | some i => s.placeInstr i
  | none => s

end Sys2Proof.Machine
end

