-- ==== Sys2Proof/Safety.lean ====
section
/-!
DEFINITION. The terms claims are stated in: the FIFO's contents, the invariants of a reachable state, what a firing puts
out, the schedules the spec names, and which parts of two states agree.
-/

namespace Sys2Proof.Safety

open Sys2Proof Sys2Proof.Machine

/-! ### The FIFO as a queue (10_state R34) -/

/-- The stored cells, oldest first: `mem[(rd_idx + k) mod C]` for `k = 0 .. count−1`; `none` where a cell holds no value. -/
def storedCells (s : State) : List (Option Byte) :=
  (List.range s.count).map fun k => s.mem.read ((s.rdIdx + k) % s.cfg.capacity)

/-! ### Invariants of a reachable state (10_state R44) -/

/-- The well-formedness of a reachable state. -/
structure StateInv (s : State) : Prop where
  /-- `C ≥ 1` (00_scope R6). -/
  capacity_pos : 0 < s.cfg.capacity
  /-- FIFO storage is in canonical form. -/
  mem_wf : s.mem.wf
  /-- Every cell of FIFO storage is in `[0,C)` (20_memory R61). -/
  mem_range : ∀ c ∈ s.mem, c.1 < s.cfg.capacity
  /-- `0 ≤ count ≤ C` (10_state R33). -/
  count_le : s.count ≤ s.cfg.capacity
  /-- `rd_idx` is in `[0,C)` (10_state R32). -/
  rdIdx_lt : s.rdIdx < s.cfg.capacity
  /-- `wr_idx = (rd_idx + count) mod C`, which also keeps it in `[0,C)` (10_state R34). -/
  wrIdx_eq : s.wrIdx = (s.rdIdx + s.count) % s.cfg.capacity
  /-- Every stored cell holds a value (10_state R34, R43). -/
  stored : ∀ k, k < s.count → (s.mem.read ((s.rdIdx + k) % s.cfg.capacity)).isSome = true
  /-- `rcv_cnt` is 0 in IDLE (10_state R29). -/
  idle_zero : s.ingState = .idle → s.rcvCnt = 0
  /-- A pending swap means that no frame is in progress (10_state R30). -/
  pending_idle : s.swapPending = true → s.ingState = .idle
  /-- While no swap is pending, the back bank is zero from the first row the frame in progress has not written; in IDLE
  that is all of it (10_state R24, R44). -/
  back_zero : s.swapPending = false →
    ∀ z y : Fin 8, s.rcvCnt.val ≤ 8 * z.val + y.val → s.backRow z y = 0x00#8

/-- The nine values of PY (30_encoding R95). -/
def pyValues : List Byte :=
  [0xFE#8, 0xFD#8, 0xFB#8, 0xF7#8, 0xEF#8, 0xDF#8, 0xBF#8, 0x7F#8, 0xFF#8]

/-- The nine values of PZ (30_encoding R96). -/
def pzValues : List Byte :=
  [0x01#8, 0x02#8, 0x04#8, 0x08#8, 0x10#8, 0x20#8, 0x40#8, 0x80#8, 0x00#8]

/-- The pattern of PZ that selects a layer, from the table of 30_encoding R96. -/
def pzPattern (z : Fin 8) : Byte := pzValues.getD z.val 0x00#8

/-- The ports between firings (41_scanner R149): PX and PY blank, PZ the layer last painted, or all three blank before the
first firing. -/
structure PortsSettled (s : State) : Prop where
  px_blank : s.px = 0x00#8
  py_blank : s.py = 0xFF#8
  pz_layer : (s.pz = 0x00#8 ∧ s.layerCursor = 0) ∨
    ∃ z : Fin 8, s.pz = pzPattern z ∧ s.layerCursor.val = (z.val + 1) % 8

/-- A port event shows PY and PZ only values of their patterns (30_encoding R97). -/
def legalEvent : Event → Bool
  | .port .py v => pyValues.contains v
  | .port .pz v => pzValues.contains v
  | .port .px _ | .hold _ | .drop _ | .swap | .tReload => true

/-- Every event put out since reset is legal. -/
def TraceLegal (s : State) : Prop := ∀ e ∈ s.trace, legalEvent e = true

/-- `drop_cnt` is the number of drops since reset, saturated (43_fifo R187). -/
def DropsCounted (s : State) : Prop := s.dropCnt.toNat = min (s.trace.countP Event.isDrop) 0xFFFF

/-- Is an event the reload that ends a firing (41_scanner R147)? -/
def isReload : Event → Bool
  | .tReload => true
  | .port _ _ | .hold _ | .drop _ | .swap => false

/-- `layer_cursor` is the number of firings since reset modulo 8 (41_scanner R150), and `front_sel` the number of committed
swaps modulo 2 (10_state R23). -/
structure SequenceCounted (s : State) : Prop where
  cursor : s.layerCursor.val = s.trace.countP isReload % 8
  front : s.frontSel.val = s.trace.countP Event.isSwap % 2

/-- The value the last event of a trace gave a port, or the value before the trace. -/
def portAfter (p : Port) (before : Byte) : List Event → Byte
  | [] => before
  | .port q v :: rest => portAfter p (if q = p then v else before) rest
  | .hold _ :: rest | .drop _ :: rest | .swap :: rest | .tReload :: rest => portAfter p before rest

/-- Every port holds what its last PORT event since reset gave it, or its reset value (10_state R37, R43). -/
structure PortsTraced (s : State) : Prop where
  px : s.px = portAfter .px 0x00#8 s.trace
  py : s.py = portAfter .py 0xFF#8 s.trace
  pz : s.pz = portAfter .pz 0x00#8 s.trace

/-! ### What a firing puts out (41_scanner R148) -/

/-- The events of one row whose register holds `v` and whose PY pattern is `sel`. -/
def rowTrace (v sel : Byte) (y : Fin 8) : List Event :=
  [.port .px v, .port .py sel, .hold y, .port .py 0xFF#8, .port .px 0x00#8]

/-- The trace of one firing with the cursor at `z`, `r y` the rows of that layer in the front bank. -/
def firingTrace (zBlankOnEntry : Bool) (r : Fin 8 → Byte) (z : Fin 8) (commits : Bool) : List Event :=
  (if zBlankOnEntry then [.port .pz 0x00#8] else [])
    ++ rowTrace (r 0) 0xFE#8 0 ++ rowTrace (r 1) 0xFD#8 1 ++ rowTrace (r 2) 0xFB#8 2 ++ rowTrace (r 3) 0xF7#8 3
    ++ rowTrace (r 4) 0xEF#8 4 ++ rowTrace (r 5) 0xDF#8 5 ++ rowTrace (r 6) 0xBF#8 6 ++ rowTrace (r 7) 0x7F#8 7
    ++ [.port .pz (pzPattern z)]
    ++ (if commits then [.swap] else []) ++ [.tReload]

/-! ### Schedules (30_encoding R100, R101) -/

/-- `FIRE` repeated: EXPIRE, TICK, EXPIRE, TICK, ... -/
def fires : Nat → List Stimulus
  | 0 => []
  | n + 1 => .expire :: .tick :: fires n

/-! ### What a run performs -/

/-- Is an operation a firing (41_scanner R140)? -/
def isFiring : Instr → Bool
  | .tick _ | .tickWrap | .tickWrapSwap => true
  | .pIdle _ _ | .push _ | .pushDrop _ | .kHold _ _ _ _ | .kEmpty _ _ _ | .sof _ | .ign _ _ | .data _ | .dataLast _
  | .sIdle _ _ | .expire | .xIdle | .zIdle | .reset => false

/-- Is an operation a row marked "no step" (30_encoding R98)? -/
def isNoStep : Instr → Bool
  | .pIdle _ _ | .kHold _ _ _ _ | .kEmpty _ _ _ | .sIdle _ _ | .xIdle | .zIdle => true
  | .push _ | .pushDrop _ | .sof _ | .ign _ _ | .data _ | .dataLast _ | .tick _ | .tickWrap | .tickWrapSwap
  | .expire | .reset => false

/-- The byte an operation pops, if it is a form of CONSUME (42_ingest R161). -/
def poppedByte : Instr → Option Byte
  | .sof _ => some Config.sof
  | .ign _ b | .data b | .dataLast b => some b
  | .pIdle _ _ | .push _ | .pushDrop _ | .kHold _ _ _ _ | .kEmpty _ _ _ | .sIdle _ _ | .tick _ | .tickWrap
  | .tickWrapSwap | .expire | .xIdle | .zIdle | .reset => none

/-- The operations a run of `n` steps performs, first one first, whoever's turns they are. -/
def performed : Nat → State → List Instr
  | 0, _ => []
  | n + 1, s =>
    fetch (nextTurn s).1 (nextTurn s).2 ::
      match step s with
      | .next t => performed n t
      | .fault _ | .refused _ => []

/-- A quiescent state, apart from the host's silence (70_reset R244). -/
def Quiescent (s : State) : Prop := s.count = 0 ∧ s.swapPending = false

/-! ### Parts of the state that a step leaves alone (60_exceptions R209) -/

/-- The model's own fields but the schedule: the parameters and the counter of free choices. -/
def SameParams (s t : State) : Prop := t.cfg = s.cfg ∧ t.sched = s.sched ∧ t.freeCount = s.freeCount

/-- The decoder's registers. -/
def SameDecoder (s t : State) : Prop := t.ingState = s.ingState ∧ t.rcvCnt = s.rcvCnt

/-- The roles of the banks and the pending swap. -/
def SameSwap (s t : State) : Prop := t.frontSel = s.frontSel ∧ t.swapPending = s.swapPending

/-- The scanner's registers and the timer's request. -/
def SameScanner (s t : State) : Prop :=
  t.layerCursor = s.layerCursor ∧ t.px = s.px ∧ t.py = s.py ∧ t.pz = s.pz ∧ t.tickPending = s.tickPending

/-- The FIFO's registers. -/
def SameFifo (s t : State) : Prop :=
  t.rdIdx = s.rdIdx ∧ t.wrIdx = s.wrIdx ∧ t.count = s.count ∧ t.dropCnt = s.dropCnt

/-- Every cell of FIFO storage but those in a set reads the same. -/
def SameCellsBut (stored : Nat → Prop) (s t : State) : Prop := ∀ a, ¬ stored a → t.mem.read a = s.mem.read a

/-- Every row register but those in a set reads the same. -/
def SameRowsBut (stored : Fin 2 → Fin 8 → Fin 8 → Prop) (s t : State) : Prop :=
  ∀ b z y, ¬ stored b z y → t.grid.row b z y = s.grid.row b z y

end Sys2Proof.Safety
end

