-- ==== Sys2Proof/Certificates/Slice0/Obligations.lean ====
section
/-!
DEFINITION. The statements put to the provers.

Every statement over states is over ALL states, reachable or not; where it would fail only in states that no run reaches it
takes `Safety.StateInv` as a premise, which `StepKeepsTheInvariants` and `ResetStateMeetsTheInvariants` are about. Every
statement holds for every capacity `C` and both values of `Z_BLANK_ON_ENTRY`, which State carries and no step writes.
-/

open Sys2Proof Sys2Proof.Machine Sys2Proof.Safety

/-! ### Encoding -/

/-- Decoding the decode word of any well-formed operation gives the operation back, every operand at every value (30_encoding
section 5). -/
def Obligations.DecodeOfEncodeGivesTheOperation : Prop :=
  ∀ i : Instr, i.WellFormed = true → decode (encode i) = i

/-- Every bit combination of every format is the word of exactly one well-formed operation, so no word is reserved and no bit
of a word is lost (30_encoding R99). -/
def Obligations.EveryWordIsTheEncodingOfItsReading : Prop :=
  ∀ w : DecodeWord, (decode w).WellFormed = true ∧ encode (decode w) = w

/-- The decoder reads a word as the earliest row of the opcode table that the word matches under the row's mask (30_encoding
R98: "Where two patterns overlap, the earlier row wins."). -/
def Obligations.DecoderTakesTheEarliestMatchingRow : Prop :=
  ∀ w : DecodeWord, tableMnemonic w = some (decode w).mnemonic

/-- Words written out in the worked examples of 95_test_vectors (V1, V2, V3, V5, P4) decode to the operations named there. The
last clause is no worked example: that a number too wide for its format is rejected by name is the model's own (assumption 19).
-/
def Obligations.WorkedExampleWordsDecode : Prop :=
  decodeBits .p 0x2A7 = .ok (.push 0xA7#8) ∧ decodeBits .p 0x355 = .ok (.pushDrop 0x55#8) ∧
  decodeBits .k 0x4F2 = .ok (.sof false) ∧ decodeBits .k 0x472 = .ok (.ign false 0x72#8) ∧
  decodeBits .k 0x6F2 = .ok (.data 0xF2#8) ∧ decodeBits .k 0x7FF = .ok (.dataLast 0xFF#8) ∧
  decodeBits .k 0xCF2 = .ok (.kHold true .idle false 0xF2#8) ∧
  decodeBits .s 0x5 = .ok (.tick true) ∧ decodeBits .s 0x6 = .ok .tickWrap ∧ decodeBits .s 0x7 = .ok .tickWrapSwap ∧
  decodeBits .x 0x0 = .ok .expire ∧ decodeBits .z 0x1 = .ok .reset ∧
  decodeBits .s 0x8 = .error (.tooWide .s 0x8)

/-- What the CONSUMER's turn performs on the byte at the head of the FIFO depends on `ing_state`, `rcv_cnt` and the byte alone
(30_encoding R93). -/
def Obligations.StreamByteMeansWhatTheModeSays : Prop :=
  ∀ (s : State) (b : Byte), s.swapPending = false → s.count ≠ 0 → s.mem.read s.rdIdx = some b →
    (s.ingState = .idle → b = 0xF2#8 → ∃ l, fetch .consume s = .sof l) ∧
    (s.ingState = .idle → b ≠ 0xF2#8 → ∃ l, fetch .consume s = .ign l b) ∧
    (s.ingState = .receiving → s.rcvCnt.val < 63 → fetch .consume s = .data b) ∧
    (s.ingState = .receiving → s.rcvCnt.val = 63 → fetch .consume s = .dataLast b)

/-- No byte value is illegal in either mode: in IDLE the 255 values other than the marker cost one POP and change nothing else,
in RECEIVING every value is data, and every word of every format is covered by a row of the table (30_encoding R99). -/
def Obligations.NoByteIsIllegal : Prop :=
  (∀ (s : State) (b : Byte),
    s.swapPending = false → s.count ≠ 0 → s.rdIdx < s.cfg.capacity → s.mem.read s.rdIdx = some b →
    (s.ingState = .idle → b ≠ 0xF2#8 →
      exec (fetch .consume s) s = .next { s with rdIdx := (s.rdIdx + 1) % s.cfg.capacity, count := s.count - 1 }) ∧
    (s.ingState = .idle → b = 0xF2#8 → ∃ t, exec (fetch .consume s) s = .next t ∧ t.ingState = .receiving) ∧
    (s.ingState = .receiving → ∃ t, exec (fetch .consume s) s = .next t ∧
      t.backRow (payloadLayer s.rcvCnt) (payloadRow s.rcvCnt) = b)) ∧
  (∀ w : DecodeWord, (tableMnemonic w).isSome = true)

/-- An operation that its agent's decode word selects in a state is never refused in that state. The bound on `count` is an
invariant (`StateInv`). That an operation is refused where its word does not select it is the model's choice (assumption 6). -/
def Obligations.SelectedOperationIsNeverRefused : Prop :=
  ∀ (i : Instr) (s : State), s.count ≤ s.cfg.capacity → fetch (turnOf i) s = i → ∀ r, exec i s ≠ .refused r

/-- An operation handed to `exec` where its decode word is not selected is refused by name. The refusal is the model's choice
(assumption 6), on 30_encoding section 7: "A schedule that names a step whose enabling condition is false is not a run of the
block." -/
def Obligations.UnselectedOperationIsRefused : Prop :=
  (∀ s b, s.cfg.capacity ≤ s.count → exec (.push b) s = .refused (.notSelected "PUSH")) ∧
  (∀ s b, s.count ≠ s.cfg.capacity → exec (.pushDrop b) s = .refused (.notSelected "PUSH_DROP")) ∧
  (∀ s ne ing last h, s.swapPending = false → exec (.kHold ne ing last h) s = .refused (.notSelected "K_HOLD")) ∧
  (∀ s ing last h, s.swapPending = true ∨ s.count ≠ 0 →
    exec (.kEmpty ing last h) s = .refused (.notSelected "K_EMPTY")) ∧
  (∀ s last b, s.swapPending = true ∨ s.count = 0 →
    exec (.sof last) s = .refused (.notSelected "SOF") ∧ exec (.ign last b) s = .refused (.notSelected "IGN") ∧
    exec (.data b) s = .refused (.notSelected "DATA") ∧ exec (.dataLast b) s = .refused (.notSelected "DATA_LAST")) ∧
  (∀ s last b d, s.swapPending = false → s.count ≠ 0 → s.rdIdx < s.cfg.capacity → s.mem.read s.rdIdx = some b →
    (¬ (s.ingState = .idle ∧ b = 0xF2#8) → exec (.sof last) s = .refused (.notSelected "SOF")) ∧
    (¬ (s.ingState = .idle ∧ b = d ∧ d ≠ 0xF2#8) → exec (.ign last d) s = .refused (.notSelected "IGN")) ∧
    (¬ (s.ingState = .receiving ∧ s.rcvCnt.val < 63 ∧ b = d) → exec (.data d) s = .refused (.notSelected "DATA")) ∧
    (¬ (s.ingState = .receiving ∧ s.rcvCnt.val = 63 ∧ b = d) →
      exec (.dataLast d) s = .refused (.notSelected "DATA_LAST"))) ∧
  (∀ s wrap sp, s.tickPending = true → exec (.sIdle wrap sp) s = .refused (.notSelected "S_IDLE")) ∧
  (∀ s sp, s.tickPending = false ∨ s.layerCursor = 7 → exec (.tick sp) s = .refused (.notSelected "TICK")) ∧
  (∀ s, s.tickPending = false ∨ s.layerCursor ≠ 7 ∨ s.swapPending = true →
    exec .tickWrap s = .refused (.notSelected "TICK_WRAP")) ∧
  (∀ s, s.tickPending = false ∨ s.layerCursor ≠ 7 ∨ s.swapPending = false →
    exec .tickWrapSwap s = .refused (.notSelected "TICK_WRAP_SWAP")) ∧
  (∀ s, s.tickPending = true → exec .expire s = .refused (.notSelected "EXPIRE")) ∧
  (∀ s, s.tickPending = false → exec .xIdle s = .refused (.notSelected "X_IDLE"))

/-- The model's two faults, each where it is raised: an index that names no cell (20_memory section 1; assumption 4) and a POP
of a cell that holds no value (10_state section 9, "unwritten cells hold no value"; assumption 3). `StepNeverStops` says that
no well-formed state reaches them. -/
def Obligations.StorageAccessFaults : Prop :=
  (∀ (s : State) (b : Byte), s.count < s.cfg.capacity → s.cfg.capacity ≤ s.wrIdx →
    exec (.push b) s = .fault (.noSuchCell s.wrIdx)) ∧
  (∀ (s : State) (last : Bool) (b : Byte) (i : Instr),
    i = .sof last ∨ i = .ign last b ∨ i = .data b ∨ i = .dataLast b → s.swapPending = false → s.count ≠ 0 →
    (s.cfg.capacity ≤ s.rdIdx → exec i s = .fault (.noSuchCell s.rdIdx)) ∧
    (s.rdIdx < s.cfg.capacity → s.mem.read s.rdIdx = none → exec i s = .fault (.unwrittenCell s.rdIdx)))

/-! ### Operands -/

/-- The grid position of a payload byte: layer `n div 8 = n[5:3]`, row `n mod 8 = n[2:0]` with `n = rcv_cnt` when the byte is
decoded, and the byte's own bits are that row's value (30_encoding R92). -/
def Obligations.PayloadPositionIsDivAndMod : Prop :=
  (∀ n : Fin 64,
    (payloadLayer n).val = n.val / 8 ∧ (payloadRow n).val = n.val % 8 ∧
    (payloadLayer n).val = ((BitVec.ofNat 6 n.val).extractLsb 5 3).toNat ∧
    (payloadRow n).val = ((BitVec.ofNat 6 n.val).extractLsb 2 0).toNat) ∧
  (∀ (s t : State) (b : Byte), exec (.data b) s = .next t ∨ exec (.dataLast b) s = .next t →
    t.backRow (payloadLayer s.rcvCnt) (payloadRow s.rcvCnt) = b)

/-- PY selects row `y` one-cold, by the table of 30_encoding R95; blank is `0xFF`. -/
def Obligations.RowSelectIsOneCold : Prop :=
  (List.finRange 8).map rowSelect = [0xFE#8, 0xFD#8, 0xFB#8, 0xF7#8, 0xEF#8, 0xDF#8, 0xBF#8, 0x7F#8] ∧
  (∀ y i : Fin 8, (rowSelect y).getLsbD i.val = decide (i ≠ y)) ∧ blankY = 0xFF#8

/-- PZ selects layer `z` one-hot, by the table of 30_encoding R96; blank is `0x00`. -/
def Obligations.LayerSelectIsOneHot : Prop :=
  (List.finRange 8).map layerSelect = [0x01#8, 0x02#8, 0x04#8, 0x08#8, 0x10#8, 0x20#8, 0x40#8, 0x80#8] ∧
  (∀ z i : Fin 8, (layerSelect z).getLsbD i.val = decide (i = z)) ∧ blankZ = 0x00#8

/-- The increment of a FIFO index in `[0,C)` is `i + 1`, and 0 after `C − 1` (43_fifo section 4, index arithmetic, marked as
derived). -/
def Obligations.IndexIncrementWraps : Prop :=
  ∀ i c : Nat, i < c → (i + 1 < c → nextIndex i c = i + 1) ∧ (i + 1 = c → nextIndex i c = 0)

/-! ### The step -/

/-- A step performs the operation selected by the decode word of the agent whose turn stands first in the schedule, on the
state without that turn; with an empty schedule the turn is the free value (assumption 1). -/
def Obligations.StepRunsTheFetchedOperation : Prop :=
  (∀ (s : State) (turn : Stimulus) (rest : List Stimulus), s.sched = turn :: rest →
    step s = exec (decode (fetchWord turn s)) { s with sched := rest }) ∧
  (∀ s : State, s.sched = [] →
    step s = exec (decode (fetchWord (Config.freeStimulus s.freeCount) s)) { s with freeCount := s.freeCount + 1 })

/-- An operation placed to be the next one (`State.placeInstr`, which `withFetchWord` uses) is the one the next step performs,
and from a well-formed state it completes. The placing is the model's own (assumption 10). -/
def Obligations.PlacedOperationRunsNext : Prop :=
  ∀ (i : Instr) (s : State), i.WellFormed = true → StateInv s →
    step (s.placeInstr i) = exec i (s.placeBits i) ∧ ∃ t, exec i (s.placeBits i) = .next t

/-- The rows marked "no step" change nothing at all, each where its word selects it. That the model answers the unchanged state
there is its reading of 42_ingest R160, "neither changes any state" (assumption 5). -/
def Obligations.NoStepRowsChangeNothing : Prop :=
  (∀ s full d, exec (.pIdle full d) s = .next s) ∧
  (∀ s ne ing last head, s.swapPending = true → exec (.kHold ne ing last head) s = .next s) ∧
  (∀ s ing last head, s.swapPending = false → s.count = 0 → exec (.kEmpty ing last head) s = .next s) ∧
  (∀ s wrap sp, s.tickPending = false → exec (.sIdle wrap sp) s = .next s) ∧
  (∀ s, s.tickPending = true → exec .xIdle s = .next s) ∧
  (∀ s, exec .zIdle s = .next s)

/-- No step changes the parameters `C` and `Z_BLANK_ON_ENTRY` (00_scope R6, R7: parameters, not state). -/
def Obligations.StepKeepsTheParameters : Prop :=
  ∀ s t : State, step s = .next t → t.cfg = s.cfg

/-! ### PRODUCER -/

/-- PUSH stores the byte at `wr_idx`, advances `wr_idx` modulo `C` and `count`, and changes nothing else (43_fifo R181
[decision D4]). -/
def Obligations.PushStoresTheByte : Prop :=
  ∀ (s : State) (b : Byte), s.count < s.cfg.capacity → s.wrIdx < s.cfg.capacity →
    ∃ t, exec (.push b) s = .next t ∧
      t = { s with
        mem := s.mem.write s.wrIdx b
        wrIdx := (s.wrIdx + 1) % s.cfg.capacity
        count := s.count + 1 } ∧
      t.mem.read s.wrIdx = some b ∧ (∀ a, a ≠ s.wrIdx → t.mem.read a = s.mem.read a) ∧
      t.empty = false ∧ (t.full = true ↔ s.count + 1 = s.cfg.capacity) ∧ t.cmdPending = true

/-- PUSH_DROP counts the drop in the saturating counter, emits DROP, and keeps everything else (43_fifo R182 [decisions D4,
D5]). -/
def Obligations.PushDropRefusesTheByte : Prop :=
  ∀ (s : State) (b : Byte), s.count = s.cfg.capacity →
    ∃ t, exec (.pushDrop b) s = .next t ∧
      t = { s with dropCnt := t.dropCnt, trace := s.trace ++ [.drop b] } ∧
      t.dropCnt.toNat = min (s.dropCnt.toNat + 1) 0xFFFF ∧ rxDropPulse [.drop b] = true

/-- What a PUSH appends is the youngest stored byte; the bytes stored before it stand before it unchanged (20_memory section 5,
FIFO order). -/
def Obligations.PushAppendsToTheQueue : Prop :=
  ∀ (s t : State) (b : Byte), StateInv s → exec (.push b) s = .next t → storedCells t = storedCells s ++ [some b]

/-- From an empty FIFO, as many bytes as its capacity are all stored in order, and the next one is dropped (43_fifo R186
[decision D4]). -/
def Obligations.FifoHoldsCapacityBytesThenDrops : Prop :=
  ∀ (s : State) (bs : List Byte) (b : Byte) (rest : List Stimulus),
    StateInv s → s.count = 0 → bs.length = s.cfg.capacity →
    s.sched = bs.map (Stimulus.rx true) ++ .rx true b :: rest →
    ∃ t : State, Host.Core.run Sys2Proof.core (s.cfg.capacity + 1) s = .next t ∧
      storedCells t = bs.map some ∧ t.full = true ∧
      t.dropCnt.toNat = min (s.dropCnt.toNat + 1) 0xFFFF ∧ t.trace = s.trace ++ [.drop b] ∧ t.sched = rest

/-- The frame of the PRODUCER's operations: of the block's state only `mem[wr_idx]`, `wr_idx` and `count` (PUSH) or `drop_cnt`
(PUSH_DROP) may change (60_exceptions section 4, a table the spec marks as derived). -/
def Obligations.ProducerWritesOnlyItsOwnState : Prop :=
  ∀ (s t : State) (full : Bool) (b : Byte),
    (exec (.push b) s = .next t →
      SameParams s t ∧ t.grid = s.grid ∧ SameSwap s t ∧ SameDecoder s t ∧ SameScanner s t ∧ t.trace = s.trace ∧
      t.rdIdx = s.rdIdx ∧ t.dropCnt = s.dropCnt ∧ SameCellsBut (fun a => a = s.wrIdx) s t) ∧
    (exec (.pushDrop b) s = .next t →
      SameParams s t ∧ t.grid = s.grid ∧ SameSwap s t ∧ SameDecoder s t ∧ SameScanner s t ∧
      t.rdIdx = s.rdIdx ∧ t.wrIdx = s.wrIdx ∧ t.count = s.count ∧ SameCellsBut (fun _ => False) s t) ∧
    (exec (.pIdle full b) s = .next t →
      SameParams s t ∧ t.grid = s.grid ∧ SameSwap s t ∧ SameDecoder s t ∧ SameScanner s t ∧ t.trace = s.trace ∧
      SameFifo s t ∧ SameCellsBut (fun _ => False) s t)

/-! ### CONSUMER -/

/-- SOF, K `010x11110010`, pops the marker and goes to RECEIVING at byte 0; nothing else changes (42_ingest R162). -/
def Obligations.SofStartsAFrame : Prop :=
  (∀ last, encode (.sof last) = .k (0b010#3 ++ BitVec.ofBool last ++ 0b11110010#8)) ∧
  ∀ (s : State) (last : Bool),
    s.swapPending = false → s.count ≠ 0 → s.rdIdx < s.cfg.capacity → s.mem.read s.rdIdx = some 0xF2#8 →
    s.ingState = .idle →
    exec (.sof last) s = .next { s with
      rdIdx := (s.rdIdx + 1) % s.cfg.capacity
      count := s.count - 1
      ingState := .receiving
      rcvCnt := 0 }

/-- IGN, K `010xbbbbbbbb`, pops any other byte in IDLE and changes nothing else (42_ingest R163). -/
def Obligations.IgnDiscardsTheByte : Prop :=
  (∀ last b, encode (.ign last b) = .k (0b010#3 ++ BitVec.ofBool last ++ b)) ∧
  ∀ (s : State) (last : Bool) (b : Byte),
    s.swapPending = false → s.count ≠ 0 → s.rdIdx < s.cfg.capacity → s.mem.read s.rdIdx = some b →
    s.ingState = .idle → b ≠ 0xF2#8 →
    exec (.ign last b) s = .next { s with
      rdIdx := (s.rdIdx + 1) % s.cfg.capacity
      count := s.count - 1 }

/-- DATA, K `0110bbbbbbbb`, pops any byte, writes it to row `n mod 8` of layer `n div 8` of the back bank, and counts it; no
other row and nothing else changes (42_ingest R164). -/
def Obligations.DataWritesItsRow : Prop :=
  (∀ b, encode (.data b) = .k (0b0110#4 ++ b)) ∧
  ∀ (s : State) (b : Byte) (z y : Fin 8),
    s.swapPending = false → s.count ≠ 0 → s.rdIdx < s.cfg.capacity → s.mem.read s.rdIdx = some b →
    s.ingState = .receiving → s.rcvCnt.val < 63 → z.val = s.rcvCnt.val / 8 → y.val = s.rcvCnt.val % 8 →
    ∃ t, exec (.data b) s = .next t ∧
      t = { s with
        rdIdx := (s.rdIdx + 1) % s.cfg.capacity
        count := s.count - 1
        grid := t.grid
        rcvCnt := t.rcvCnt } ∧
      t.rcvCnt.val = s.rcvCnt.val + 1 ∧
      (∀ b' z' y', t.grid.row b' z' y' =
        if b' = s.frontSel ^^^ 1 ∧ z' = z ∧ y' = y then b else s.grid.row b' z' y')

/-- DATA_LAST pops any byte, writes it to row 7 of layer 7 of the back bank, requests the swap and returns to IDLE; no other
row and nothing else changes (42_ingest R165 [decisions D8, D18]). -/
def Obligations.DataLastCompletesTheFrame : Prop :=
  ∀ (s : State) (b : Byte),
    s.swapPending = false → s.count ≠ 0 → s.rdIdx < s.cfg.capacity → s.mem.read s.rdIdx = some b →
    s.ingState = .receiving → s.rcvCnt.val = 63 →
    ∃ t, exec (.dataLast b) s = .next t ∧
      t = { s with
        rdIdx := (s.rdIdx + 1) % s.cfg.capacity
        count := s.count - 1
        grid := t.grid
        swapPending := true
        ingState := .idle
        rcvCnt := 0 } ∧
      (∀ b' z' y', t.grid.row b' z' y' =
        if b' = s.frontSel ^^^ 1 ∧ z' = 7 ∧ y' = 7 then b else s.grid.row b' z' y')

/-- POP returns nothing exactly when the FIFO is empty, and otherwise the byte at `rd_idx`, advancing `rd_idx` modulo `C` and
taking one from `count`; the flags follow (43_fifo R183). -/
def Obligations.PopTakesTheHead : Prop :=
  (∀ s : State, s.fifoPop = .ok none ↔ s.count = 0) ∧
  (∀ (s : State) (b : Byte), s.count ≠ 0 → s.rdIdx < s.cfg.capacity → s.mem.read s.rdIdx = some b →
    ∃ t, s.fifoPop = .ok (some (b, t)) ∧
      t = { s with rdIdx := (s.rdIdx + 1) % s.cfg.capacity, count := s.count - 1 } ∧
      (s.count ≤ s.cfg.capacity → t.full = false) ∧
      (t.empty = true ↔ s.count = 1) ∧ (t.cmdPending = false ↔ s.count = 1))

/-- Every form of CONSUME takes exactly the oldest stored byte and leaves the younger ones in their order (43_fifo R183;
20_memory section 5, FIFO order). -/
def Obligations.ConsumeTakesTheOldestByte : Prop :=
  ∀ (s t : State) (last : Bool) (b : Byte) (i : Instr),
    (i = .sof last ∧ b = 0xF2#8) ∨ i = .ign last b ∨ i = .data b ∨ i = .dataLast b →
    exec i s = .next t → storedCells s = some b :: storedCells t

/-- The frame of the CONSUMER's operations: of the block's state only `rd_idx`, `count`, the decoder's registers, rows of the
back bank and the setting of `swap_pending` may change, and DATA and DATA_LAST store to one row, that of byte `rcv_cnt`
(60_exceptions section 4, a table the spec marks as derived). -/
def Obligations.ConsumerWritesOnlyItsOwnState : Prop :=
  ∀ (s t : State) (ne last : Bool) (ing : IngState) (b : Byte),
    (∀ i, i = .kHold ne ing last b ∨ i = .kEmpty ing last b → exec i s = .next t →
      SameParams s t ∧ t.grid = s.grid ∧ SameSwap s t ∧ SameDecoder s t ∧ SameScanner s t ∧ t.trace = s.trace ∧
      SameFifo s t ∧ SameCellsBut (fun _ => False) s t) ∧
    (∀ i, i = .sof last ∨ i = .ign last b → exec i s = .next t →
      SameParams s t ∧ t.grid = s.grid ∧ SameSwap s t ∧ SameScanner s t ∧ t.trace = s.trace ∧
      t.wrIdx = s.wrIdx ∧ t.dropCnt = s.dropCnt ∧ SameCellsBut (fun _ => False) s t) ∧
    (∀ i, i = .data b ∨ i = .dataLast b → exec i s = .next t →
      SameParams s t ∧
      SameRowsBut (fun b' z y => b' = s.backSel ∧ z = payloadLayer s.rcvCnt ∧ y = payloadRow s.rcvCnt) s t ∧
      t.frontSel = s.frontSel ∧ SameScanner s t ∧ t.trace = s.trace ∧
      t.wrIdx = s.wrIdx ∧ t.dropCnt = s.dropCnt ∧ SameCellsBut (fun _ => False) s t)

/-- A frame in progress ends in no other way than by its last payload byte or by RESET (42_ingest R167: "The only ways out of
RECEIVING are DATA_LAST and RESET."). -/
def Obligations.OnlyDataLastAndResetLeaveReceiving : Prop :=
  ∀ (i : Instr) (s t : State), exec i s = .next t → s.ingState = .receiving → t.ingState = .idle →
    i = .reset ∨ (∃ b, i = .dataLast b) ∧ s.rcvCnt.val = 63

/-- PUSH and CONSUME in the same instant give the same state in either order while `0 < count < C` (20_memory R78 [decision
D6]). -/
def Obligations.PushAndConsumeCommuteInside : Prop :=
  ∀ (s : State) (b : Byte), StateInv s → s.swapPending = false → 0 < s.count → s.count < s.cfg.capacity →
    ∃ t₁ t₂ u,
      exec (.push b) s = .next t₁ ∧ exec (fetch .consume t₁) t₁ = .next u ∧
      exec (fetch .consume s) s = .next t₂ ∧ exec (.push b) t₂ = .next u

/-- At the boundaries the two orders differ (20_memory R78 [decision D6]): with `count = C`, first the PUSH drops the byte,
first the CONSUME lets it be stored; with `count = 0`, first the CONSUMER finds nothing, first the PUSH lets it pop the new
byte at once. -/
def Obligations.PushAndConsumeOrderMattersAtTheEnds : Prop :=
  (∀ (s : State) (b : Byte), StateInv s → s.swapPending = false → s.count = s.cfg.capacity →
    (∃ t u, exec (fetch (.rx true b) s) s = .next t ∧ exec (fetch .consume t) t = .next u ∧
      u.count + 1 = s.cfg.capacity ∧ u.dropCnt.toNat = min (s.dropCnt.toNat + 1) 0xFFFF ∧
      storedCells s = s.mem.read s.rdIdx :: storedCells u) ∧
    (∃ t u, exec (fetch .consume s) s = .next t ∧ exec (fetch (.rx true b) t) t = .next u ∧
      u.count = s.cfg.capacity ∧ u.dropCnt = s.dropCnt ∧
      storedCells s ++ [some b] = s.mem.read s.rdIdx :: storedCells u)) ∧
  (∀ (s : State) (b : Byte), StateInv s → s.swapPending = false → s.count = 0 →
    (∃ t, exec (fetch .consume s) s = .next s ∧ exec (fetch (.rx true b) s) s = .next t ∧
      storedCells t = [some b]) ∧
    (∃ t u, exec (fetch (.rx true b) s) s = .next t ∧ t.mem.read t.rdIdx = some b ∧
      exec (fetch .consume t) t = .next u ∧ storedCells u = []))

/-- A whole frame that is already stored (which takes `C ≥ 65`), nothing else moving: 65 turns of the CONSUMER on a FIFO whose
oldest bytes are the marker and 64 payload bytes leave byte `n` in row `n mod 8` of layer `n div 8` of the back bank, the swap
requested and the decoder in IDLE; the front bank is not touched and nothing is put out (42_ingest section 3, the
completed-frame property, marked as derived). -/
def Obligations.CompleteFrameFillsTheBackBank : Prop :=
  ∀ (s : State) (d : List Byte) (younger : List (Option Byte)) (rest : List Stimulus),
    StateInv s → s.ingState = .idle → s.swapPending = false → d.length = 64 →
    storedCells s = some 0xF2#8 :: (d.map some ++ younger) →
    s.sched = List.replicate 65 .consume ++ rest →
    ∃ t : State, Host.Core.run Sys2Proof.core 65 s = .next t ∧
      (∀ z y : Fin 8, d[8 * z.val + y.val]? = some (t.backRow z y)) ∧
      t.swapPending = true ∧ t.ingState = .idle ∧ t.frontSel = s.frontSel ∧
      (∀ z y, t.frontRow z y = s.frontRow z y) ∧ storedCells t = younger ∧ t.trace = s.trace ∧ t.sched = rest

/-! ### SCANNER -/

/-- A row of a firing puts its register on PX unchanged, pin `x` the voxel `x` of the row, and leaves PX blank (30_encoding
R94). -/
def Obligations.ColumnsCarryTheRowUnchanged : Prop :=
  ∀ (s : State) (f : Fin 2) (z y : Fin 8), ∃ v rest,
    (scanRow f z s y).trace = s.trace ++ .port .px v :: rest ∧ v = s.grid.row f z y ∧
    (∀ x : Fin 8, v.getLsbD x.val = s.grid.voxel f x y z) ∧
    (scanRow f z s y).px = 0x00#8

/-- TICK paints one layer below 7: the trace of a firing, the ports blank but for PZ, the cursor one further, the request
cleared, and nothing else (41_scanner R140 [decisions D14, D15], R143 [D11, D12, D29], R145, R146). -/
def Obligations.TickPaintsItsLayer : Prop :=
  ∀ (s : State) (sp : Bool), s.tickPending = true → s.layerCursor.val < 7 →
    exec (.tick sp) s = .next { s with
      tickPending := false
      layerCursor := s.layerCursor + 1
      px := 0x00#8
      py := 0xFF#8
      pz := pzPattern s.layerCursor
      trace := s.trace ++
        firingTrace s.cfg.zBlankOnEntry (fun y => s.grid.row s.frontSel s.layerCursor y) s.layerCursor false }

/-- TICK_WRAP paints layer 7 with no swap pending: as TICK, and the cursor wraps to 0 (41_scanner R140, R146). -/
def Obligations.TickWrapPaintsTheTopLayer : Prop :=
  ∀ s : State, s.tickPending = true → s.layerCursor = 7 → s.swapPending = false →
    exec .tickWrap s = .next { s with
      tickPending := false
      layerCursor := 0
      px := 0x00#8
      py := 0xFF#8
      pz := 0x80#8
      trace := s.trace ++ firingTrace s.cfg.zBlankOnEntry (fun y => s.grid.row s.frontSel 7 y) 7 false }

/-- TICK_WRAP_SWAP paints layer 7 from the old front bank and commits the swap: the banks exchange roles, the bank that was
back keeps every row, the bank that was front is all zero, `swap_pending` is cleared and SWAP is emitted (40_grid_swap R125
[decisions D8, D9], 41_scanner R146). -/
def Obligations.TickWrapSwapCommits : Prop :=
  ∀ s : State, s.tickPending = true → s.layerCursor = 7 → s.swapPending = true →
    ∃ t, exec .tickWrapSwap s = .next t ∧
      t = { s with
        tickPending := false
        layerCursor := 0
        px := 0x00#8
        py := 0xFF#8
        pz := 0x80#8
        frontSel := s.frontSel ^^^ 1
        grid := t.grid
        swapPending := false
        trace := s.trace ++ firingTrace s.cfg.zBlankOnEntry (fun y => s.grid.row s.frontSel 7 y) 7 true } ∧
      (∀ z y, t.grid.row (s.frontSel ^^^ 1) z y = s.grid.row (s.frontSel ^^^ 1) z y) ∧
      (∀ z y, t.grid.row s.frontSel z y = 0x00#8) ∧ swapEvtPulse [.swap] = true

/-- The frame of the SCANNER's operations: of the block's state only the cursor, the ports and the timer's request may change,
and, in TICK_WRAP_SWAP alone, `front_sel`, `swap_pending` and the rows of the bank that was front (60_exceptions section 4, a
table the spec marks as derived). -/
def Obligations.ScannerWritesOnlyItsOwnState : Prop :=
  ∀ (s t : State) (wrap sp : Bool),
    (exec (.sIdle wrap sp) s = .next t →
      SameParams s t ∧ t.grid = s.grid ∧ SameSwap s t ∧ SameDecoder s t ∧ SameScanner s t ∧ t.trace = s.trace ∧
      SameFifo s t ∧ SameCellsBut (fun _ => False) s t) ∧
    (∀ i, i = .tick sp ∨ i = .tickWrap → exec i s = .next t →
      SameParams s t ∧ t.grid = s.grid ∧ SameSwap s t ∧ SameDecoder s t ∧ SameFifo s t ∧
      SameCellsBut (fun _ => False) s t) ∧
    (exec .tickWrapSwap s = .next t →
      SameParams s t ∧ SameRowsBut (fun b _ _ => b = s.frontSel) s t ∧ SameDecoder s t ∧ SameFifo s t ∧
      SameCellsBut (fun _ => False) s t)

/-- What the block puts out does not depend on the back bank: over two states that differ only in rows of the back bank every
operation answers states that agree in everything but the grid (10_state section 1 and 20_memory section 5, both marked as
derived). -/
def Obligations.BackBankIsInvisible : Prop :=
  ∀ (i : Instr) (s t : State) (g : Grid),
    (∀ z y, g.row s.frontSel z y = s.grid.row s.frontSel z y) → exec i s = .next t →
    ∃ u, exec i { s with grid := g } = .next u ∧ u = { t with grid := u.grid } ∧ u.trace = t.trace ∧ u.pins = t.pins

/-- Firings with nothing else moving between them paint the layers in increasing order modulo 8: after `k` of them the cursor
is `k` further and PZ selects the layer before it; after 8 the cursor is where it was (41_scanner section 3, the cursor cycle,
marked as derived). -/
def Obligations.FiringsCycleThroughTheLayers : Prop :=
  ∀ (k : Nat) (s : State) (rest : List Stimulus), s.tickPending = false → s.sched = fires k ++ rest →
    ∃ t : State, Host.Core.run Sys2Proof.core (2 * k) s = .next t ∧
      t.layerCursor.val = (s.layerCursor.val + k) % 8 ∧ t.tickPending = false ∧ t.sched = rest ∧
      (∀ z : Fin 8, 0 < k → z.val = (s.layerCursor.val + (k - 1)) % 8 → t.pz = pzPattern z)

/-- A refresh pass puts out all 8 layers from one bank with one content, and commits a pending swap at its end and not before
(40_grid_swap R123 [decision D8], 41_scanner section 3). The pass is any run without RESET that starts at cursor 0 and holds 8
firings: PRODUCER and CONSUMER, a whole frame and its swap request among them, may move anywhere in it. What the run puts out
is then the 8 firings and the drops; `c` says whether the last firing commits. -/
def Obligations.RefreshPassShowsOneFrame : Prop :=
  ∀ (n : Nat) (s : State), StateInv s → s.layerCursor = 0 → .reset ∉ performed n s →
    (performed n s).countP isFiring = 8 →
    ∃ (t : State) (new : List Event) (c : Bool), Host.Core.run Sys2Proof.core n s = .next t ∧
      t.trace = s.trace ++ new ∧
      new.filter (fun e => !e.isDrop) = (List.finRange 8).flatMap (fun z =>
        firingTrace s.cfg.zBlankOnEntry (fun y => s.grid.row s.frontSel z y) z (z == 7 && c)) ∧
      (s.swapPending = true → c = true) ∧ (c = true ↔ .tickWrapSwap ∈ performed n s) ∧
      t.frontSel = (if c then s.frontSel ^^^ 1 else s.frontSel) ∧ t.layerCursor = 0 ∧
      ((performed n s).getLast?.any isFiring = true → t.swapPending = false ∧ t.tickPending = false)

/-- The wait for a requested swap, in any run without RESET: the firings before the one at cursor 7 leave it pending, the roles
and the grid as they are, and meanwhile nothing is popped, so that the stored bytes only gain younger ones; the firing at
cursor 7 commits it, so the wait is between 1 and 8 firings (40_grid_swap, when the commit happens and the hold, marked as
derived). -/
def Obligations.PendingSwapCommitsAtTheWrap : Prop :=
  ∀ (n k : Nat) (s : State), StateInv s → s.swapPending = true → .reset ∉ performed n s →
    (performed n s).countP isFiring = k → s.layerCursor.val + k ≤ 8 →
    ∃ t : State, Host.Core.run Sys2Proof.core n s = .next t ∧
      (s.layerCursor.val + k < 8 →
        t.swapPending = true ∧ t.frontSel = s.frontSel ∧ t.grid = s.grid ∧ SameDecoder s t ∧ t.rdIdx = s.rdIdx ∧
        ∃ younger, storedCells t = storedCells s ++ younger) ∧
      (s.layerCursor.val + k = 8 →
        t.frontSel = s.frontSel ^^^ 1 ∧ (∀ z y, t.frontRow z y = s.backRow z y) ∧
        ((performed n s).getLast?.any isFiring = true →
          t.swapPending = false ∧ (∀ z y, t.backRow z y = 0x00#8) ∧ SameDecoder s t ∧ t.rdIdx = s.rdIdx ∧
          ∃ younger, storedCells t = storedCells s ++ younger))

/-- The hold of the CONSUMER is lifted by nothing but a firing at cursor 7 or RESET (60_exceptions section 4, holds, marked as
derived). -/
def Obligations.OnlyTheWrapAndResetLiftTheHold : Prop :=
  ∀ (i : Instr) (s t : State), exec i s = .next t → s.swapPending = true → t.swapPending = false →
    i = .reset ∨ i = .tickWrapSwap ∧ s.layerCursor = 7 ∧ s.tickPending = true

/-- A bank that becomes the back bank is all zero from that very operation on, before any new write lands in it (10_state R24).
-/
def Obligations.NewBackBankIsZero : Prop :=
  ∀ (i : Instr) (s t : State), exec i s = .next t → t.frontSel ≠ s.frontSel → ∀ z y, t.backRow z y = 0x00#8

/-- The front bank keeps its role and every row in every operation but the commit and RESET: the ingest path never mutates it
(10_state R23 [decision D10], 20_memory R72). -/
def Obligations.FrontBankChangesOnlyInCommitAndReset : Prop :=
  ∀ (i : Instr) (s t : State), exec i s = .next t → i ≠ .tickWrapSwap → i ≠ .reset →
    t.frontSel = s.frontSel ∧ ∀ z y, t.frontRow z y = s.frontRow z y

/-! ### TIMER and RESET -/

/-- EXPIRE requests a firing and changes nothing else; the TIMER then has no step until the firing (60_exceptions R214
[decision D15]). -/
def Obligations.ExpireRequestsAFiring : Prop :=
  ∀ s : State, s.tickPending = false →
    fetch .expire s = .expire ∧ exec .expire s = .next { s with tickPending := true } ∧
    fetch .expire { s with tickPending := true } = .xIdle

/-- RESET, from any state, leaves the reset state whatever `mem` holds; `mem` is not written (70_reset R230 [decision D17]).
The model's own fields `cfg`, `sched` and `freeCount` are no state of the block and stay (assumption 8). -/
def Obligations.ResetRestoresTheResetState : Prop :=
  ∀ s : State, ∃ t, exec .reset s = .next t ∧
    t = { State.reset with cfg := s.cfg, mem := s.mem, sched := s.sched, freeCount := s.freeCount } ∧
    t.empty = true ∧ t.cmdPending = false ∧ (0 < s.cfg.capacity → t.full = false)

/-- The value of every element of state after reset that the spec gives one (10_state R43 [decision D17]). -/
def Obligations.ResetStateHoldsTheListedValues : Prop :=
  (∀ b z y, State.reset.grid.row b z y = 0x00#8) ∧
  State.reset.frontSel = 0 ∧ State.reset.swapPending = false ∧
  State.reset.ingState = .idle ∧ IngState.idle.code = false ∧ State.reset.rcvCnt = 0 ∧
  State.reset.rdIdx = 0 ∧ State.reset.wrIdx = 0 ∧ State.reset.count = 0 ∧ State.reset.dropCnt = 0#16 ∧
  State.reset.layerCursor = 0 ∧ State.reset.px = 0x00#8 ∧ State.reset.py = 0xFF#8 ∧ State.reset.pz = 0x00#8 ∧
  State.reset.tickPending = false

/-! ### Invariants -/

/-- Every step keeps the well-formedness of a reachable state (10_state section 9, the state record, marked as derived). -/
def Obligations.StepKeepsTheInvariants : Prop :=
  ∀ s t : State, StateInv s → step s = .next t → StateInv t

/-- The reset state is well formed. -/
def Obligations.ResetStateMeetsTheInvariants : Prop := StateInv State.reset

/-- From a well-formed state the machine neither faults nor refuses, whoever's turn it is: the block "never halts"
(60_exceptions R200). -/
def Obligations.StepNeverStops : Prop :=
  ∀ s : State, StateInv s → ∃ t, step s = .next t

/-- Every step keeps the ports settled between firings: PX and PY blank, PZ the layer last painted (41_scanner section 3,
marked as derived). -/
def Obligations.StepKeepsThePortsSettled : Prop :=
  ∀ s t : State, PortsSettled s → step s = .next t → PortsSettled t

/-- Every step keeps to the nine values of PY and the nine of PZ in what it puts out (30_encoding section 4, marked as
derived). -/
def Obligations.StepPutsOutOnlyLegalPatterns : Prop :=
  ∀ s t : State, TraceLegal s → step s = .next t → TraceLegal t

/-- Every step keeps `drop_cnt` at the saturated number of DROP events since reset (43_fifo section 4, conservation, marked as
derived). -/
def Obligations.StepKeepsTheDropCount : Prop :=
  ∀ s t : State, DropsCounted s → step s = .next t → DropsCounted t

/-- Every step keeps the cursor at the number of firings since reset modulo 8, and `front_sel` at the number of swaps modulo 2
(41_scanner R146, 40_grid_swap R125). -/
def Obligations.StepKeepsTheSequenceCounts : Prop :=
  ∀ s t : State, SequenceCounted s → step s = .next t → SequenceCounted t

/-- Every step keeps each port at the value of its last PORT event: every port write emits one (10_state R37). -/
def Obligations.StepTracesEveryPortWrite : Prop :=
  ∀ s t : State, PortsTraced s → step s = .next t → PortsTraced t

/-- The reset state meets the invariants over the ports and the trace. -/
def Obligations.ResetStateMeetsTheTraceInvariants : Prop :=
  PortsSettled State.reset ∧ TraceLegal State.reset ∧ DropsCounted State.reset ∧ SequenceCounted State.reset ∧
    PortsTraced State.reset

/-- In a quiescent state, with no byte delivered and no reset, every turn leaves the grid, the FIFO and the decoder as they are
and the state quiescent (70_reset R244 [decision D30]). -/
def Obligations.QuiescentStateStaysQuiescent : Prop :=
  ∀ (s : State) (turn : Stimulus) (rest : List Stimulus),
    Quiescent s → s.sched = turn :: rest → (∀ b, turn ≠ .rx true b) → turn ≠ .rst true →
    ∃ t, step s = .next t ∧ Quiescent t ∧ t.sched = rest ∧ t.grid = s.grid ∧ t.frontSel = s.frontSel ∧
      SameDecoder s t ∧ SameFifo s t ∧ t.mem = s.mem

/-- Two canonical FIFO storages that read alike everywhere are the same data. That storage is a list in canonical form is the
model's own (assumption 3). -/
def Obligations.EqualReadsAreEqualStorage : Prop :=
  ∀ m m' : Memory, m.wf → m'.wf → (∀ a, m.read a = m'.read a) → m = m'

/-! ### Whole frames -/

/-- A frame popped in any run without RESET, whatever else moves and for every capacity (42_ingest section 3, the
completed-frame property, marked as derived): if the run starts in IDLE with no swap pending and the bytes it pops are the
marker and 64 payload bytes, then until the swap is committed the back bank holds byte `n` in row `n mod 8` of layer `n div 8`,
the swap is pending and no SWAP has been emitted; and from the firing that commits it on the front bank holds them, the back
bank is zero and exactly one SWAP has been emitted. -/
def Obligations.PoppedFrameIsStoredAndShown : Prop :=
  ∀ (n : Nat) (s : State) (d : List Byte),
    StateInv s → s.ingState = .idle → s.swapPending = false → .reset ∉ performed n s →
    (performed n s).filterMap poppedByte = 0xF2#8 :: d → d.length = 64 →
    ∃ (t : State) (new : List Event), Host.Core.run Sys2Proof.core n s = .next t ∧ t.trace = s.trace ++ new ∧
      (.tickWrapSwap ∉ performed n s →
        (∀ z y : Fin 8, d[8 * z.val + y.val]? = some (t.backRow z y)) ∧ t.swapPending = true ∧ t.ingState = .idle ∧
        t.frontSel = s.frontSel ∧ (∀ z y, t.frontRow z y = s.frontRow z y) ∧ new.countP Event.isSwap = 0) ∧
      (.tickWrapSwap ∈ performed n s →
        (∀ z y : Fin 8, d[8 * z.val + y.val]? = some (t.frontRow z y)) ∧ t.swapPending = false ∧ t.ingState = .idle ∧
        (∀ z y, t.backRow z y = 0x00#8) ∧ new.countP Event.isSwap = 1)
end

