-- ==== Sys2Proof/Laws/Decode.lean ====
section
/-!
SUPPORT. The fields of a packed decode word read back as they were packed.
-/

namespace Sys2Proof

@[simp] theorem IngState.ofCode_code (i : IngState) : IngState.ofCode i.code = i := by cases i <;> rfl

@[simp] theorem IngState.code_ofCode (c : Bool) : (IngState.ofCode c).code = c := by cases c <;> rfl

section formatP
variable (v f : Bool) (d : Byte)
@[simp] theorem packP_rxValid : (packP v f d)[9] = v := by cases v <;> simp [packP, flagAt]
@[simp] theorem packP_full : (packP v f d)[8] = f := by cases f <;> simp [packP, flagAt]
@[simp] theorem packP_rxData : (packP v f d).extractLsb' 0 8 = d := by
  refine BitVec.eq_of_getLsbD_eq fun i hi => ?_
  simp [packP, flagAt, hi, show i < 9 by omega, show i < 10 by omega]
end formatP

section formatK
variable (sp ne : Bool) (ing : IngState) (last : Bool) (head : Byte)
@[simp] theorem packK_swapPending : (packK sp ne ing last head)[11] = sp := by
  cases sp <;> simp [packK, flagAt]
@[simp] theorem packK_nonempty : (packK sp ne ing last head)[10] = ne := by
  cases ne <;> simp [packK, flagAt]
@[simp] theorem packK_ing : (packK sp ne ing last head)[9] = ing.code := by
  cases ing <;> simp [packK, flagAt, IngState.code]
@[simp] theorem packK_last : (packK sp ne ing last head)[8] = last := by
  cases last <;> simp [packK, flagAt]
@[simp] theorem packK_head : (packK sp ne ing last head).extractLsb' 0 8 = head := by
  refine BitVec.eq_of_getLsbD_eq fun i hi => ?_
  simp [packK, flagAt, hi, show i < 9 by omega, show i < 10 by omega, show i < 11 by omega, show i < 12 by omega]
end formatK

section formatS
variable (tp wrap sp : Bool)
@[simp] theorem packS_tickPending : (packS tp wrap sp)[2] = tp := by cases tp <;> cases wrap <;> cases sp <;> rfl
@[simp] theorem packS_wrap : (packS tp wrap sp)[1] = wrap := by cases tp <;> cases wrap <;> cases sp <;> rfl
@[simp] theorem packS_swapPending : (packS tp wrap sp)[0] = sp := by cases tp <;> cases wrap <;> cases sp <;> rfl
end formatS

end Sys2Proof
end

