-- ==== Sys2Proof/Laws/State.lean ====
section
/-!
SUPPORT. What every named update of the state does to every field, one lemma per field per update.
-/

namespace Sys2Proof.Machine

open Sys2Proof

variable (s : State)

/-! ### writeRow -/

@[simp] theorem State.writeRow_cfg (z y : Fin 8) (v : Byte) : (s.writeRow z y v).cfg = s.cfg := rfl
@[simp] theorem State.writeRow_grid (z y : Fin 8) (v : Byte) : (s.writeRow z y v).grid = s.grid.setRow s.backSel z y v := rfl
@[simp] theorem State.writeRow_frontSel (z y : Fin 8) (v : Byte) : (s.writeRow z y v).frontSel = s.frontSel := rfl
@[simp] theorem State.writeRow_swapPending (z y : Fin 8) (v : Byte) : (s.writeRow z y v).swapPending = s.swapPending := rfl
@[simp] theorem State.writeRow_ingState (z y : Fin 8) (v : Byte) : (s.writeRow z y v).ingState = s.ingState := rfl
@[simp] theorem State.writeRow_rcvCnt (z y : Fin 8) (v : Byte) : (s.writeRow z y v).rcvCnt = s.rcvCnt := rfl
@[simp] theorem State.writeRow_mem (z y : Fin 8) (v : Byte) : (s.writeRow z y v).mem = s.mem := rfl
@[simp] theorem State.writeRow_rdIdx (z y : Fin 8) (v : Byte) : (s.writeRow z y v).rdIdx = s.rdIdx := rfl
@[simp] theorem State.writeRow_wrIdx (z y : Fin 8) (v : Byte) : (s.writeRow z y v).wrIdx = s.wrIdx := rfl
@[simp] theorem State.writeRow_count (z y : Fin 8) (v : Byte) : (s.writeRow z y v).count = s.count := rfl
@[simp] theorem State.writeRow_dropCnt (z y : Fin 8) (v : Byte) : (s.writeRow z y v).dropCnt = s.dropCnt := rfl
@[simp] theorem State.writeRow_layerCursor (z y : Fin 8) (v : Byte) : (s.writeRow z y v).layerCursor = s.layerCursor := rfl
@[simp] theorem State.writeRow_px (z y : Fin 8) (v : Byte) : (s.writeRow z y v).px = s.px := rfl
@[simp] theorem State.writeRow_py (z y : Fin 8) (v : Byte) : (s.writeRow z y v).py = s.py := rfl
@[simp] theorem State.writeRow_pz (z y : Fin 8) (v : Byte) : (s.writeRow z y v).pz = s.pz := rfl
@[simp] theorem State.writeRow_tickPending (z y : Fin 8) (v : Byte) : (s.writeRow z y v).tickPending = s.tickPending := rfl
@[simp] theorem State.writeRow_trace (z y : Fin 8) (v : Byte) : (s.writeRow z y v).trace = s.trace := rfl
@[simp] theorem State.writeRow_sched (z y : Fin 8) (v : Byte) : (s.writeRow z y v).sched = s.sched := rfl
@[simp] theorem State.writeRow_freeCount (z y : Fin 8) (v : Byte) : (s.writeRow z y v).freeCount = s.freeCount := rfl

/-! ### emit -/

@[simp] theorem State.emit_cfg (e : Event) : (s.emit e).cfg = s.cfg := rfl
@[simp] theorem State.emit_grid (e : Event) : (s.emit e).grid = s.grid := rfl
@[simp] theorem State.emit_frontSel (e : Event) : (s.emit e).frontSel = s.frontSel := rfl
@[simp] theorem State.emit_swapPending (e : Event) : (s.emit e).swapPending = s.swapPending := rfl
@[simp] theorem State.emit_ingState (e : Event) : (s.emit e).ingState = s.ingState := rfl
@[simp] theorem State.emit_rcvCnt (e : Event) : (s.emit e).rcvCnt = s.rcvCnt := rfl
@[simp] theorem State.emit_mem (e : Event) : (s.emit e).mem = s.mem := rfl
@[simp] theorem State.emit_rdIdx (e : Event) : (s.emit e).rdIdx = s.rdIdx := rfl
@[simp] theorem State.emit_wrIdx (e : Event) : (s.emit e).wrIdx = s.wrIdx := rfl
@[simp] theorem State.emit_count (e : Event) : (s.emit e).count = s.count := rfl
@[simp] theorem State.emit_dropCnt (e : Event) : (s.emit e).dropCnt = s.dropCnt := rfl
@[simp] theorem State.emit_layerCursor (e : Event) : (s.emit e).layerCursor = s.layerCursor := rfl
@[simp] theorem State.emit_px (e : Event) : (s.emit e).px = s.px := rfl
@[simp] theorem State.emit_py (e : Event) : (s.emit e).py = s.py := rfl
@[simp] theorem State.emit_pz (e : Event) : (s.emit e).pz = s.pz := rfl
@[simp] theorem State.emit_tickPending (e : Event) : (s.emit e).tickPending = s.tickPending := rfl
@[simp] theorem State.emit_trace (e : Event) : (s.emit e).trace = s.trace ++ [e] := rfl
@[simp] theorem State.emit_sched (e : Event) : (s.emit e).sched = s.sched := rfl
@[simp] theorem State.emit_freeCount (e : Event) : (s.emit e).freeCount = s.freeCount := rfl

/-! ### drivePx -/

@[simp] theorem State.drivePx_cfg (v : Byte) : (s.drivePx v).cfg = s.cfg := rfl
@[simp] theorem State.drivePx_grid (v : Byte) : (s.drivePx v).grid = s.grid := rfl
@[simp] theorem State.drivePx_frontSel (v : Byte) : (s.drivePx v).frontSel = s.frontSel := rfl
@[simp] theorem State.drivePx_swapPending (v : Byte) : (s.drivePx v).swapPending = s.swapPending := rfl
@[simp] theorem State.drivePx_ingState (v : Byte) : (s.drivePx v).ingState = s.ingState := rfl
@[simp] theorem State.drivePx_rcvCnt (v : Byte) : (s.drivePx v).rcvCnt = s.rcvCnt := rfl
@[simp] theorem State.drivePx_mem (v : Byte) : (s.drivePx v).mem = s.mem := rfl
@[simp] theorem State.drivePx_rdIdx (v : Byte) : (s.drivePx v).rdIdx = s.rdIdx := rfl
@[simp] theorem State.drivePx_wrIdx (v : Byte) : (s.drivePx v).wrIdx = s.wrIdx := rfl
@[simp] theorem State.drivePx_count (v : Byte) : (s.drivePx v).count = s.count := rfl
@[simp] theorem State.drivePx_dropCnt (v : Byte) : (s.drivePx v).dropCnt = s.dropCnt := rfl
@[simp] theorem State.drivePx_layerCursor (v : Byte) : (s.drivePx v).layerCursor = s.layerCursor := rfl
@[simp] theorem State.drivePx_px (v : Byte) : (s.drivePx v).px = v := rfl
@[simp] theorem State.drivePx_py (v : Byte) : (s.drivePx v).py = s.py := rfl
@[simp] theorem State.drivePx_pz (v : Byte) : (s.drivePx v).pz = s.pz := rfl
@[simp] theorem State.drivePx_tickPending (v : Byte) : (s.drivePx v).tickPending = s.tickPending := rfl
@[simp] theorem State.drivePx_trace (v : Byte) : (s.drivePx v).trace = s.trace ++ [.port .px v] := rfl
@[simp] theorem State.drivePx_sched (v : Byte) : (s.drivePx v).sched = s.sched := rfl
@[simp] theorem State.drivePx_freeCount (v : Byte) : (s.drivePx v).freeCount = s.freeCount := rfl

/-! ### drivePy -/

@[simp] theorem State.drivePy_cfg (v : Byte) : (s.drivePy v).cfg = s.cfg := rfl
@[simp] theorem State.drivePy_grid (v : Byte) : (s.drivePy v).grid = s.grid := rfl
@[simp] theorem State.drivePy_frontSel (v : Byte) : (s.drivePy v).frontSel = s.frontSel := rfl
@[simp] theorem State.drivePy_swapPending (v : Byte) : (s.drivePy v).swapPending = s.swapPending := rfl
@[simp] theorem State.drivePy_ingState (v : Byte) : (s.drivePy v).ingState = s.ingState := rfl
@[simp] theorem State.drivePy_rcvCnt (v : Byte) : (s.drivePy v).rcvCnt = s.rcvCnt := rfl
@[simp] theorem State.drivePy_mem (v : Byte) : (s.drivePy v).mem = s.mem := rfl
@[simp] theorem State.drivePy_rdIdx (v : Byte) : (s.drivePy v).rdIdx = s.rdIdx := rfl
@[simp] theorem State.drivePy_wrIdx (v : Byte) : (s.drivePy v).wrIdx = s.wrIdx := rfl
@[simp] theorem State.drivePy_count (v : Byte) : (s.drivePy v).count = s.count := rfl
@[simp] theorem State.drivePy_dropCnt (v : Byte) : (s.drivePy v).dropCnt = s.dropCnt := rfl
@[simp] theorem State.drivePy_layerCursor (v : Byte) : (s.drivePy v).layerCursor = s.layerCursor := rfl
@[simp] theorem State.drivePy_px (v : Byte) : (s.drivePy v).px = s.px := rfl
@[simp] theorem State.drivePy_py (v : Byte) : (s.drivePy v).py = v := rfl
@[simp] theorem State.drivePy_pz (v : Byte) : (s.drivePy v).pz = s.pz := rfl
@[simp] theorem State.drivePy_tickPending (v : Byte) : (s.drivePy v).tickPending = s.tickPending := rfl
@[simp] theorem State.drivePy_trace (v : Byte) : (s.drivePy v).trace = s.trace ++ [.port .py v] := rfl
@[simp] theorem State.drivePy_sched (v : Byte) : (s.drivePy v).sched = s.sched := rfl
@[simp] theorem State.drivePy_freeCount (v : Byte) : (s.drivePy v).freeCount = s.freeCount := rfl

/-! ### drivePz -/

@[simp] theorem State.drivePz_cfg (v : Byte) : (s.drivePz v).cfg = s.cfg := rfl
@[simp] theorem State.drivePz_grid (v : Byte) : (s.drivePz v).grid = s.grid := rfl
@[simp] theorem State.drivePz_frontSel (v : Byte) : (s.drivePz v).frontSel = s.frontSel := rfl
@[simp] theorem State.drivePz_swapPending (v : Byte) : (s.drivePz v).swapPending = s.swapPending := rfl
@[simp] theorem State.drivePz_ingState (v : Byte) : (s.drivePz v).ingState = s.ingState := rfl
@[simp] theorem State.drivePz_rcvCnt (v : Byte) : (s.drivePz v).rcvCnt = s.rcvCnt := rfl
@[simp] theorem State.drivePz_mem (v : Byte) : (s.drivePz v).mem = s.mem := rfl
@[simp] theorem State.drivePz_rdIdx (v : Byte) : (s.drivePz v).rdIdx = s.rdIdx := rfl
@[simp] theorem State.drivePz_wrIdx (v : Byte) : (s.drivePz v).wrIdx = s.wrIdx := rfl
@[simp] theorem State.drivePz_count (v : Byte) : (s.drivePz v).count = s.count := rfl
@[simp] theorem State.drivePz_dropCnt (v : Byte) : (s.drivePz v).dropCnt = s.dropCnt := rfl
@[simp] theorem State.drivePz_layerCursor (v : Byte) : (s.drivePz v).layerCursor = s.layerCursor := rfl
@[simp] theorem State.drivePz_px (v : Byte) : (s.drivePz v).px = s.px := rfl
@[simp] theorem State.drivePz_py (v : Byte) : (s.drivePz v).py = s.py := rfl
@[simp] theorem State.drivePz_pz (v : Byte) : (s.drivePz v).pz = v := rfl
@[simp] theorem State.drivePz_tickPending (v : Byte) : (s.drivePz v).tickPending = s.tickPending := rfl
@[simp] theorem State.drivePz_trace (v : Byte) : (s.drivePz v).trace = s.trace ++ [.port .pz v] := rfl
@[simp] theorem State.drivePz_sched (v : Byte) : (s.drivePz v).sched = s.sched := rfl
@[simp] theorem State.drivePz_freeCount (v : Byte) : (s.drivePz v).freeCount = s.freeCount := rfl

/-! ### setDecoder -/

@[simp] theorem State.setDecoder_cfg (ing : IngState) (n : Fin 64) : (s.setDecoder ing n).cfg = s.cfg := rfl
@[simp] theorem State.setDecoder_grid (ing : IngState) (n : Fin 64) : (s.setDecoder ing n).grid = s.grid := rfl
@[simp] theorem State.setDecoder_frontSel (ing : IngState) (n : Fin 64) : (s.setDecoder ing n).frontSel = s.frontSel := rfl
@[simp] theorem State.setDecoder_swapPending (ing : IngState) (n : Fin 64) : (s.setDecoder ing n).swapPending = s.swapPending := rfl
@[simp] theorem State.setDecoder_ingState (ing : IngState) (n : Fin 64) : (s.setDecoder ing n).ingState = ing := rfl
@[simp] theorem State.setDecoder_rcvCnt (ing : IngState) (n : Fin 64) : (s.setDecoder ing n).rcvCnt = n := rfl
@[simp] theorem State.setDecoder_mem (ing : IngState) (n : Fin 64) : (s.setDecoder ing n).mem = s.mem := rfl
@[simp] theorem State.setDecoder_rdIdx (ing : IngState) (n : Fin 64) : (s.setDecoder ing n).rdIdx = s.rdIdx := rfl
@[simp] theorem State.setDecoder_wrIdx (ing : IngState) (n : Fin 64) : (s.setDecoder ing n).wrIdx = s.wrIdx := rfl
@[simp] theorem State.setDecoder_count (ing : IngState) (n : Fin 64) : (s.setDecoder ing n).count = s.count := rfl
@[simp] theorem State.setDecoder_dropCnt (ing : IngState) (n : Fin 64) : (s.setDecoder ing n).dropCnt = s.dropCnt := rfl
@[simp] theorem State.setDecoder_layerCursor (ing : IngState) (n : Fin 64) : (s.setDecoder ing n).layerCursor = s.layerCursor := rfl
@[simp] theorem State.setDecoder_px (ing : IngState) (n : Fin 64) : (s.setDecoder ing n).px = s.px := rfl
@[simp] theorem State.setDecoder_py (ing : IngState) (n : Fin 64) : (s.setDecoder ing n).py = s.py := rfl
@[simp] theorem State.setDecoder_pz (ing : IngState) (n : Fin 64) : (s.setDecoder ing n).pz = s.pz := rfl
@[simp] theorem State.setDecoder_tickPending (ing : IngState) (n : Fin 64) : (s.setDecoder ing n).tickPending = s.tickPending := rfl
@[simp] theorem State.setDecoder_trace (ing : IngState) (n : Fin 64) : (s.setDecoder ing n).trace = s.trace := rfl
@[simp] theorem State.setDecoder_sched (ing : IngState) (n : Fin 64) : (s.setDecoder ing n).sched = s.sched := rfl
@[simp] theorem State.setDecoder_freeCount (ing : IngState) (n : Fin 64) : (s.setDecoder ing n).freeCount = s.freeCount := rfl

/-! ### setTickPending -/

@[simp] theorem State.setTickPending_cfg (v : Bool) : (s.setTickPending v).cfg = s.cfg := rfl
@[simp] theorem State.setTickPending_grid (v : Bool) : (s.setTickPending v).grid = s.grid := rfl
@[simp] theorem State.setTickPending_frontSel (v : Bool) : (s.setTickPending v).frontSel = s.frontSel := rfl
@[simp] theorem State.setTickPending_swapPending (v : Bool) : (s.setTickPending v).swapPending = s.swapPending := rfl
@[simp] theorem State.setTickPending_ingState (v : Bool) : (s.setTickPending v).ingState = s.ingState := rfl
@[simp] theorem State.setTickPending_rcvCnt (v : Bool) : (s.setTickPending v).rcvCnt = s.rcvCnt := rfl
@[simp] theorem State.setTickPending_mem (v : Bool) : (s.setTickPending v).mem = s.mem := rfl
@[simp] theorem State.setTickPending_rdIdx (v : Bool) : (s.setTickPending v).rdIdx = s.rdIdx := rfl
@[simp] theorem State.setTickPending_wrIdx (v : Bool) : (s.setTickPending v).wrIdx = s.wrIdx := rfl
@[simp] theorem State.setTickPending_count (v : Bool) : (s.setTickPending v).count = s.count := rfl
@[simp] theorem State.setTickPending_dropCnt (v : Bool) : (s.setTickPending v).dropCnt = s.dropCnt := rfl
@[simp] theorem State.setTickPending_layerCursor (v : Bool) : (s.setTickPending v).layerCursor = s.layerCursor := rfl
@[simp] theorem State.setTickPending_px (v : Bool) : (s.setTickPending v).px = s.px := rfl
@[simp] theorem State.setTickPending_py (v : Bool) : (s.setTickPending v).py = s.py := rfl
@[simp] theorem State.setTickPending_pz (v : Bool) : (s.setTickPending v).pz = s.pz := rfl
@[simp] theorem State.setTickPending_tickPending (v : Bool) : (s.setTickPending v).tickPending = v := rfl
@[simp] theorem State.setTickPending_trace (v : Bool) : (s.setTickPending v).trace = s.trace := rfl
@[simp] theorem State.setTickPending_sched (v : Bool) : (s.setTickPending v).sched = s.sched := rfl
@[simp] theorem State.setTickPending_freeCount (v : Bool) : (s.setTickPending v).freeCount = s.freeCount := rfl

/-! ### setCursor -/

@[simp] theorem State.setCursor_cfg (z : Fin 8) : (s.setCursor z).cfg = s.cfg := rfl
@[simp] theorem State.setCursor_grid (z : Fin 8) : (s.setCursor z).grid = s.grid := rfl
@[simp] theorem State.setCursor_frontSel (z : Fin 8) : (s.setCursor z).frontSel = s.frontSel := rfl
@[simp] theorem State.setCursor_swapPending (z : Fin 8) : (s.setCursor z).swapPending = s.swapPending := rfl
@[simp] theorem State.setCursor_ingState (z : Fin 8) : (s.setCursor z).ingState = s.ingState := rfl
@[simp] theorem State.setCursor_rcvCnt (z : Fin 8) : (s.setCursor z).rcvCnt = s.rcvCnt := rfl
@[simp] theorem State.setCursor_mem (z : Fin 8) : (s.setCursor z).mem = s.mem := rfl
@[simp] theorem State.setCursor_rdIdx (z : Fin 8) : (s.setCursor z).rdIdx = s.rdIdx := rfl
@[simp] theorem State.setCursor_wrIdx (z : Fin 8) : (s.setCursor z).wrIdx = s.wrIdx := rfl
@[simp] theorem State.setCursor_count (z : Fin 8) : (s.setCursor z).count = s.count := rfl
@[simp] theorem State.setCursor_dropCnt (z : Fin 8) : (s.setCursor z).dropCnt = s.dropCnt := rfl
@[simp] theorem State.setCursor_layerCursor (z : Fin 8) : (s.setCursor z).layerCursor = z := rfl
@[simp] theorem State.setCursor_px (z : Fin 8) : (s.setCursor z).px = s.px := rfl
@[simp] theorem State.setCursor_py (z : Fin 8) : (s.setCursor z).py = s.py := rfl
@[simp] theorem State.setCursor_pz (z : Fin 8) : (s.setCursor z).pz = s.pz := rfl
@[simp] theorem State.setCursor_tickPending (z : Fin 8) : (s.setCursor z).tickPending = s.tickPending := rfl
@[simp] theorem State.setCursor_trace (z : Fin 8) : (s.setCursor z).trace = s.trace := rfl
@[simp] theorem State.setCursor_sched (z : Fin 8) : (s.setCursor z).sched = s.sched := rfl
@[simp] theorem State.setCursor_freeCount (z : Fin 8) : (s.setCursor z).freeCount = s.freeCount := rfl

/-! ### countDrop -/

@[simp] theorem State.countDrop_cfg : (s.countDrop).cfg = s.cfg := rfl
@[simp] theorem State.countDrop_grid : (s.countDrop).grid = s.grid := rfl
@[simp] theorem State.countDrop_frontSel : (s.countDrop).frontSel = s.frontSel := rfl
@[simp] theorem State.countDrop_swapPending : (s.countDrop).swapPending = s.swapPending := rfl
@[simp] theorem State.countDrop_ingState : (s.countDrop).ingState = s.ingState := rfl
@[simp] theorem State.countDrop_rcvCnt : (s.countDrop).rcvCnt = s.rcvCnt := rfl
@[simp] theorem State.countDrop_mem : (s.countDrop).mem = s.mem := rfl
@[simp] theorem State.countDrop_rdIdx : (s.countDrop).rdIdx = s.rdIdx := rfl
@[simp] theorem State.countDrop_wrIdx : (s.countDrop).wrIdx = s.wrIdx := rfl
@[simp] theorem State.countDrop_count : (s.countDrop).count = s.count := rfl
@[simp] theorem State.countDrop_dropCnt : (s.countDrop).dropCnt = satSucc16 s.dropCnt := rfl
@[simp] theorem State.countDrop_layerCursor : (s.countDrop).layerCursor = s.layerCursor := rfl
@[simp] theorem State.countDrop_px : (s.countDrop).px = s.px := rfl
@[simp] theorem State.countDrop_py : (s.countDrop).py = s.py := rfl
@[simp] theorem State.countDrop_pz : (s.countDrop).pz = s.pz := rfl
@[simp] theorem State.countDrop_tickPending : (s.countDrop).tickPending = s.tickPending := rfl
@[simp] theorem State.countDrop_trace : (s.countDrop).trace = s.trace := rfl
@[simp] theorem State.countDrop_sched : (s.countDrop).sched = s.sched := rfl
@[simp] theorem State.countDrop_freeCount : (s.countDrop).freeCount = s.freeCount := rfl

/-! ### advanceWrite -/

@[simp] theorem State.advanceWrite_cfg : (s.advanceWrite).cfg = s.cfg := rfl
@[simp] theorem State.advanceWrite_grid : (s.advanceWrite).grid = s.grid := rfl
@[simp] theorem State.advanceWrite_frontSel : (s.advanceWrite).frontSel = s.frontSel := rfl
@[simp] theorem State.advanceWrite_swapPending : (s.advanceWrite).swapPending = s.swapPending := rfl
@[simp] theorem State.advanceWrite_ingState : (s.advanceWrite).ingState = s.ingState := rfl
@[simp] theorem State.advanceWrite_rcvCnt : (s.advanceWrite).rcvCnt = s.rcvCnt := rfl
@[simp] theorem State.advanceWrite_mem : (s.advanceWrite).mem = s.mem := rfl
@[simp] theorem State.advanceWrite_rdIdx : (s.advanceWrite).rdIdx = s.rdIdx := rfl
@[simp] theorem State.advanceWrite_wrIdx : (s.advanceWrite).wrIdx = nextIndex s.wrIdx s.cfg.capacity := rfl
@[simp] theorem State.advanceWrite_count : (s.advanceWrite).count = s.count + 1 := rfl
@[simp] theorem State.advanceWrite_dropCnt : (s.advanceWrite).dropCnt = s.dropCnt := rfl
@[simp] theorem State.advanceWrite_layerCursor : (s.advanceWrite).layerCursor = s.layerCursor := rfl
@[simp] theorem State.advanceWrite_px : (s.advanceWrite).px = s.px := rfl
@[simp] theorem State.advanceWrite_py : (s.advanceWrite).py = s.py := rfl
@[simp] theorem State.advanceWrite_pz : (s.advanceWrite).pz = s.pz := rfl
@[simp] theorem State.advanceWrite_tickPending : (s.advanceWrite).tickPending = s.tickPending := rfl
@[simp] theorem State.advanceWrite_trace : (s.advanceWrite).trace = s.trace := rfl
@[simp] theorem State.advanceWrite_sched : (s.advanceWrite).sched = s.sched := rfl
@[simp] theorem State.advanceWrite_freeCount : (s.advanceWrite).freeCount = s.freeCount := rfl

/-! ### advanceRead -/

@[simp] theorem State.advanceRead_cfg : (s.advanceRead).cfg = s.cfg := rfl
@[simp] theorem State.advanceRead_grid : (s.advanceRead).grid = s.grid := rfl
@[simp] theorem State.advanceRead_frontSel : (s.advanceRead).frontSel = s.frontSel := rfl
@[simp] theorem State.advanceRead_swapPending : (s.advanceRead).swapPending = s.swapPending := rfl
@[simp] theorem State.advanceRead_ingState : (s.advanceRead).ingState = s.ingState := rfl
@[simp] theorem State.advanceRead_rcvCnt : (s.advanceRead).rcvCnt = s.rcvCnt := rfl
@[simp] theorem State.advanceRead_mem : (s.advanceRead).mem = s.mem := rfl
@[simp] theorem State.advanceRead_rdIdx : (s.advanceRead).rdIdx = nextIndex s.rdIdx s.cfg.capacity := rfl
@[simp] theorem State.advanceRead_wrIdx : (s.advanceRead).wrIdx = s.wrIdx := rfl
@[simp] theorem State.advanceRead_count : (s.advanceRead).count = s.count - 1 := rfl
@[simp] theorem State.advanceRead_dropCnt : (s.advanceRead).dropCnt = s.dropCnt := rfl
@[simp] theorem State.advanceRead_layerCursor : (s.advanceRead).layerCursor = s.layerCursor := rfl
@[simp] theorem State.advanceRead_px : (s.advanceRead).px = s.px := rfl
@[simp] theorem State.advanceRead_py : (s.advanceRead).py = s.py := rfl
@[simp] theorem State.advanceRead_pz : (s.advanceRead).pz = s.pz := rfl
@[simp] theorem State.advanceRead_tickPending : (s.advanceRead).tickPending = s.tickPending := rfl
@[simp] theorem State.advanceRead_trace : (s.advanceRead).trace = s.trace := rfl
@[simp] theorem State.advanceRead_sched : (s.advanceRead).sched = s.sched := rfl
@[simp] theorem State.advanceRead_freeCount : (s.advanceRead).freeCount = s.freeCount := rfl

/-! ### swapRequest -/

@[simp] theorem State.swapRequest_cfg : (s.swapRequest).cfg = s.cfg := rfl
@[simp] theorem State.swapRequest_grid : (s.swapRequest).grid = s.grid := rfl
@[simp] theorem State.swapRequest_frontSel : (s.swapRequest).frontSel = s.frontSel := rfl
@[simp] theorem State.swapRequest_swapPending : (s.swapRequest).swapPending = true := rfl
@[simp] theorem State.swapRequest_ingState : (s.swapRequest).ingState = s.ingState := rfl
@[simp] theorem State.swapRequest_rcvCnt : (s.swapRequest).rcvCnt = s.rcvCnt := rfl
@[simp] theorem State.swapRequest_mem : (s.swapRequest).mem = s.mem := rfl
@[simp] theorem State.swapRequest_rdIdx : (s.swapRequest).rdIdx = s.rdIdx := rfl
@[simp] theorem State.swapRequest_wrIdx : (s.swapRequest).wrIdx = s.wrIdx := rfl
@[simp] theorem State.swapRequest_count : (s.swapRequest).count = s.count := rfl
@[simp] theorem State.swapRequest_dropCnt : (s.swapRequest).dropCnt = s.dropCnt := rfl
@[simp] theorem State.swapRequest_layerCursor : (s.swapRequest).layerCursor = s.layerCursor := rfl
@[simp] theorem State.swapRequest_px : (s.swapRequest).px = s.px := rfl
@[simp] theorem State.swapRequest_py : (s.swapRequest).py = s.py := rfl
@[simp] theorem State.swapRequest_pz : (s.swapRequest).pz = s.pz := rfl
@[simp] theorem State.swapRequest_tickPending : (s.swapRequest).tickPending = s.tickPending := rfl
@[simp] theorem State.swapRequest_trace : (s.swapRequest).trace = s.trace := rfl
@[simp] theorem State.swapRequest_sched : (s.swapRequest).sched = s.sched := rfl
@[simp] theorem State.swapRequest_freeCount : (s.swapRequest).freeCount = s.freeCount := rfl

/-! ### swapCommit -/

@[simp] theorem State.swapCommit_cfg : (s.swapCommit).cfg = s.cfg := rfl
@[simp] theorem State.swapCommit_grid : (s.swapCommit).grid = s.grid.clear s.frontSel 0x00#8 := rfl
@[simp] theorem State.swapCommit_frontSel : (s.swapCommit).frontSel = otherBank s.frontSel := rfl
@[simp] theorem State.swapCommit_swapPending : (s.swapCommit).swapPending = false := rfl
@[simp] theorem State.swapCommit_ingState : (s.swapCommit).ingState = s.ingState := rfl
@[simp] theorem State.swapCommit_rcvCnt : (s.swapCommit).rcvCnt = s.rcvCnt := rfl
@[simp] theorem State.swapCommit_mem : (s.swapCommit).mem = s.mem := rfl
@[simp] theorem State.swapCommit_rdIdx : (s.swapCommit).rdIdx = s.rdIdx := rfl
@[simp] theorem State.swapCommit_wrIdx : (s.swapCommit).wrIdx = s.wrIdx := rfl
@[simp] theorem State.swapCommit_count : (s.swapCommit).count = s.count := rfl
@[simp] theorem State.swapCommit_dropCnt : (s.swapCommit).dropCnt = s.dropCnt := rfl
@[simp] theorem State.swapCommit_layerCursor : (s.swapCommit).layerCursor = s.layerCursor := rfl
@[simp] theorem State.swapCommit_px : (s.swapCommit).px = s.px := rfl
@[simp] theorem State.swapCommit_py : (s.swapCommit).py = s.py := rfl
@[simp] theorem State.swapCommit_pz : (s.swapCommit).pz = s.pz := rfl
@[simp] theorem State.swapCommit_tickPending : (s.swapCommit).tickPending = s.tickPending := rfl
@[simp] theorem State.swapCommit_trace : (s.swapCommit).trace = s.trace ++ [.swap] := rfl
@[simp] theorem State.swapCommit_sched : (s.swapCommit).sched = s.sched := rfl
@[simp] theorem State.swapCommit_freeCount : (s.swapCommit).freeCount = s.freeCount := rfl

/-! ### toReset -/

@[simp] theorem State.toReset_cfg : (s.toReset).cfg = s.cfg := rfl
@[simp] theorem State.toReset_grid : (s.toReset).grid = (s.grid.clear 0 0x00#8).clear 1 0x00#8 := rfl
@[simp] theorem State.toReset_frontSel : (s.toReset).frontSel = 0 := rfl
@[simp] theorem State.toReset_swapPending : (s.toReset).swapPending = false := rfl
@[simp] theorem State.toReset_ingState : (s.toReset).ingState = .idle := rfl
@[simp] theorem State.toReset_rcvCnt : (s.toReset).rcvCnt = 0 := rfl
@[simp] theorem State.toReset_mem : (s.toReset).mem = s.mem := rfl
@[simp] theorem State.toReset_rdIdx : (s.toReset).rdIdx = 0 := rfl
@[simp] theorem State.toReset_wrIdx : (s.toReset).wrIdx = 0 := rfl
@[simp] theorem State.toReset_count : (s.toReset).count = 0 := rfl
@[simp] theorem State.toReset_dropCnt : (s.toReset).dropCnt = 0#16 := rfl
@[simp] theorem State.toReset_layerCursor : (s.toReset).layerCursor = 0 := rfl
@[simp] theorem State.toReset_px : (s.toReset).px = 0x00#8 := rfl
@[simp] theorem State.toReset_py : (s.toReset).py = 0xFF#8 := rfl
@[simp] theorem State.toReset_pz : (s.toReset).pz = 0x00#8 := rfl
@[simp] theorem State.toReset_tickPending : (s.toReset).tickPending = false := rfl
@[simp] theorem State.toReset_trace : (s.toReset).trace = [] := rfl
@[simp] theorem State.toReset_sched : (s.toReset).sched = s.sched := rfl
@[simp] theorem State.toReset_freeCount : (s.toReset).freeCount = s.freeCount := rfl

/-! ### The back bank's name under the updates -/

@[simp] theorem State.writeRow_backSel (z y : Fin 8) (v : Byte) : (s.writeRow z y v).backSel = s.backSel := rfl
@[simp] theorem State.emit_backSel (e : Event) : (s.emit e).backSel = s.backSel := rfl
@[simp] theorem State.drivePx_backSel (v : Byte) : (s.drivePx v).backSel = s.backSel := rfl
@[simp] theorem State.drivePy_backSel (v : Byte) : (s.drivePy v).backSel = s.backSel := rfl
@[simp] theorem State.drivePz_backSel (v : Byte) : (s.drivePz v).backSel = s.backSel := rfl
@[simp] theorem State.setDecoder_backSel (ing : IngState) (n : Fin 64) : (s.setDecoder ing n).backSel = s.backSel := rfl
@[simp] theorem State.setTickPending_backSel (v : Bool) : (s.setTickPending v).backSel = s.backSel := rfl
@[simp] theorem State.setCursor_backSel (z : Fin 8) : (s.setCursor z).backSel = s.backSel := rfl
@[simp] theorem State.countDrop_backSel : (s.countDrop).backSel = s.backSel := rfl
@[simp] theorem State.advanceWrite_backSel : (s.advanceWrite).backSel = s.backSel := rfl
@[simp] theorem State.advanceRead_backSel : (s.advanceRead).backSel = s.backSel := rfl
@[simp] theorem State.swapRequest_backSel : (s.swapRequest).backSel = s.backSel := rfl
@[simp] theorem State.swapCommit_backSel : s.swapCommit.backSel = otherBank (otherBank s.frontSel) := rfl

end Sys2Proof.Machine
end

