-- ==== Sys2Proof/Laws/Fifo.lean ====
section
/-!
SUPPORT. Laws of the FIFO's shared operations and of selection: everything each can answer, said once.
-/

namespace Sys2Proof.Machine

open Sys2Proof

variable {s t u : State} {b : Byte}

theorem State.memRead_ok : s.memRead s.rdIdx = .ok b ↔ s.rdIdx < s.cfg.capacity ∧ s.mem.read s.rdIdx = some b := by
  unfold State.memRead
  split
  · next h => split <;> simp_all
  · next h => simp [h]

/-- PUSH's storing either succeeds, at an index that names a cell, or faults. -/
theorem State.fifoPush_ok :
    s.fifoPush b = .ok t ↔
      s.wrIdx < s.cfg.capacity ∧ t = State.advanceWrite { s with mem := s.mem.write s.wrIdx b } := by
  unfold State.fifoPush State.memWrite
  by_cases h : s.wrIdx < s.cfg.capacity
  · simp [h, eq_comm]
  · simp [h]

/-- POP returns nothing exactly when the FIFO is empty. -/
theorem State.fifoPop_none : s.fifoPop = .ok none ↔ s.count = 0 := by
  unfold State.fifoPop
  split
  · next h => simp [h]
  · next h => split <;> simp [h]

/-- POP returns the byte of the cell at `rd_idx` and the state without it. -/
theorem State.fifoPop_some :
    s.fifoPop = .ok (some (b, t)) ↔
      s.count ≠ 0 ∧ s.rdIdx < s.cfg.capacity ∧ s.mem.read s.rdIdx = some b ∧ t = s.advanceRead := by
  unfold State.fifoPop
  by_cases h : s.count = 0
  · simp [h]
  · rw [if_neg h]
    cases e : s.memRead s.rdIdx with
    | ok v =>
      obtain ⟨h1, h2⟩ := State.memRead_ok.mp e
      simp [h, h1, h2, eq_comm]
    | error f =>
      have hn : ¬ (s.rdIdx < s.cfg.capacity ∧ s.mem.read s.rdIdx = some b) :=
        fun hb => by simp [State.memRead_ok.mpr hb] at e
      simp only [reduceCtorEq, false_iff]
      exact fun ⟨_, h1, h2, _⟩ => hn ⟨h1, h2⟩

/-- What follows a selection test happens exactly when the test holds. -/
theorem whenSelected_next {m : String} {c : Bool} {r : Host.Outcome State Fault Refusal} :
    whenSelected m c r = .next u ↔ c = true ∧ r = .next u := by
  cases c <;> simp [whenSelected]

theorem whenSelected_fault {m : String} {c : Bool} {r : Host.Outcome State Fault Refusal} {f : Fault} :
    whenSelected m c r = .fault f ↔ c = true ∧ r = .fault f := by
  cases c <;> simp [whenSelected]

theorem whenSelected_refused {m : String} {c : Bool} {r : Host.Outcome State Fault Refusal} {e : Refusal} :
    whenSelected m c r = .refused e ↔ (c = false ∧ e = .notSelected m) ∨ (c = true ∧ r = .refused e) := by
  cases c <;> simp [whenSelected, eq_comm]

end Sys2Proof.Machine
end

