-- ==== Sys2Proof/Laws/Grid.lean ====
section
/-!
SUPPORT. Laws of the grid store: a row write changes one row, a clear one bank (10_state R21, 40_grid_swap R121, R122).
-/

namespace Sys2Proof.Machine

open Sys2Proof

theorem vector_get_set {α : Type} {n : Nat} (v : Vector α n) (i j : Fin n) (x : α) :
    (v.set i x).get j = if i = j then x else v.get j := by
  simp [Vector.get_eq_getElem, Vector.getElem_set, Fin.ext_iff]

/-- Reading a row after a row write. -/
theorem Grid.row_setRow (g : Grid) (b b' : Fin 2) (z z' y y' : Fin 8) (v : Byte) :
    (g.setRow b z y v).row b' z' y' = if b = b' ∧ z = z' ∧ y = y' then v else g.row b' z' y' := by
  unfold Grid.row Grid.setRow
  rw [vector_get_set]
  by_cases hb : b = b'
  · subst hb
    rw [if_pos rfl, vector_get_set]
    by_cases hz : z = z'
    · subst hz
      rw [if_pos rfl, vector_get_set]
      by_cases hy : y = y' <;> simp [hy]
    · rw [if_neg hz, if_neg (by simp [hz])]
  · rw [if_neg hb, if_neg (by simp [hb])]

/-- Every row of a filled bank. -/
theorem Bank.get_filled (v : Byte) (z y : Fin 8) : ((Bank.filled v).get z).get y = v := by
  simp [Bank.filled, Vector.get_eq_getElem]

/-- Reading a row after a clear. -/
theorem Grid.row_clear (g : Grid) (b b' : Fin 2) (v : Byte) (z y : Fin 8) :
    (g.clear b v).row b' z y = if b = b' then v else g.row b' z y := by
  unfold Grid.row Grid.clear
  rw [vector_get_set]
  by_cases hb : b = b'
  · rw [if_pos hb, if_pos hb, Bank.get_filled]
  · rw [if_neg hb, if_neg hb]

/-- Two grids with the same rows are the same grid. -/
theorem Grid.ext_rows {g h : Grid} (e : ∀ b z y, g.row b z y = h.row b z y) : g = h := by
  refine Vector.ext fun b hb => Vector.ext fun z hz => Vector.ext fun y hy => ?_
  simpa [Grid.row, Vector.get_eq_getElem] using e ⟨b, hb⟩ ⟨z, hz⟩ ⟨y, hy⟩

@[simp] theorem otherBank_otherBank (b : Fin 2) : otherBank (otherBank b) = b := by
  revert b; decide

theorem otherBank_ne (b : Fin 2) : otherBank b ≠ b := by
  revert b; decide

theorem eq_otherBank_of_ne {a b : Fin 2} (h : a ≠ b) : a = otherBank b := by
  revert a b; decide

end Sys2Proof.Machine
end

