-- ==== Sys2Proof/Laws/Scanner.lean ====
section
/-!
SUPPORT. Laws of a firing: what it does to every field, and what it puts out.
-/

namespace Sys2Proof.Machine

open Sys2Proof

/-! ### Port patterns as the spec's tables list them -/

theorem rowSelect_table :
    rowSelect 0 = 0xFE#8 ∧ rowSelect 1 = 0xFD#8 ∧ rowSelect 2 = 0xFB#8 ∧ rowSelect 3 = 0xF7#8 ∧
      rowSelect 4 = 0xEF#8 ∧ rowSelect 5 = 0xDF#8 ∧ rowSelect 6 = 0xBF#8 ∧ rowSelect 7 = 0x7F#8 := by decide

theorem layerSelect_eq_pattern (z : Fin 8) : layerSelect z = Safety.pzPattern z := by
  revert z; decide

/-! ### SCAN.ROW and the eight rows -/

/-- One row puts out its five events and leaves PX and PY blank; nothing else changes. -/
theorem scanRow_eq (f : Fin 2) (z : Fin 8) (s : State) (y : Fin 8) :
    scanRow f z s y =
      { s with
        px := 0x00#8
        py := 0xFF#8
        trace := s.trace ++ Safety.rowTrace (s.grid.row f z y) (rowSelect y) y } := by
  simp [scanRow, Safety.rowTrace, State.drivePx, State.drivePy, State.emit, blankX, blankY]

/-- The events of the eight rows of a layer. -/
def rowsTrace (r : Fin 8 → Byte) : List Event := rowOrder.flatMap fun y => Safety.rowTrace (r y) (rowSelect y) y

/-- Step 1 of a firing: the eight rows are put out and PX and PY are blank; nothing else changes. -/
theorem scanRows_eq (f : Fin 2) (z : Fin 8) (s : State) :
    scanRows f z s =
      { s with
        px := 0x00#8
        py := 0xFF#8
        trace := s.trace ++ rowsTrace (s.grid.row f z) } := by
  simp [scanRows, rowOrder, scanRow_eq, rowsTrace]

/-! ### The firing -/

/-- Does this firing commit a swap? -/
def commits (s : State) : Bool := s.wrap && s.swapPending

/-- SCAN.ADV and what follows it, over a state whose cursor is still the firing's. -/
theorem scanAdv_eq (z : Fin 8) (s : State) :
    scanAdv z s =
      { s with
        layerCursor := nextLayer z
        frontSel := if z = 7 ∧ s.swapPending = true then otherBank s.frontSel else s.frontSel
        grid := if z = 7 ∧ s.swapPending = true then s.grid.clear s.frontSel 0x00#8 else s.grid
        swapPending := if z = 7 ∧ s.swapPending = true then false else s.swapPending
        trace := if z = 7 ∧ s.swapPending = true then s.trace ++ [.swap] else s.trace } := by
  show (if z = 7 ∧ s.swapPending = true then (s.setCursor (nextLayer z)).swapCommit else s.setCursor (nextLayer z)) = _
  by_cases h : z = 7 ∧ s.swapPending = true
  · simp only [if_pos h]
    rfl
  · simp only [if_neg h]
    rfl

theorem commits_iff (s : State) : commits s = true ↔ s.layerCursor = 7 ∧ s.swapPending = true := by
  simp [commits, State.wrap]

/-- The events of one firing from a state (41_scanner R148). -/
def fireTrace (s : State) : List Event :=
  Safety.firingTrace s.cfg.zBlankOnEntry (s.frontRow s.layerCursor) s.layerCursor (commits s)

/-- Everything one firing does (41_scanner R140): the fields it changes, and no other. -/
theorem fire_eq (s : State) :
    fire s =
      { s with
        tickPending := false
        px := 0x00#8
        py := 0xFF#8
        pz := layerSelect s.layerCursor
        layerCursor := nextLayer s.layerCursor
        frontSel := if commits s then otherBank s.frontSel else s.frontSel
        grid := if commits s then s.grid.clear s.frontSel 0x00#8 else s.grid
        swapPending := if commits s then false else s.swapPending
        trace := s.trace ++ fireTrace s } := by
  obtain ⟨r0, r1, r2, r3, r4, r5, r6, r7⟩ := rowSelect_table
  have hc := commits_iff s
  by_cases h : s.layerCursor = 7 ∧ s.swapPending = true
  · have hc' : commits s = true := hc.mpr h
    cases hz : s.cfg.zBlankOnEntry <;>
      simp [fire, scanZBlank, scanReload, scanZSel, scanRows_eq, scanAdv_eq, State.emit, State.drivePz, hz, h, hc',
        State.setTickPending, fireTrace, Safety.firingTrace, rowsTrace, rowOrder, State.frontRow, blankZ,
        r0, r1, r2, r3, r4, r5, r6, r7, layerSelect_eq_pattern]
  · have hc' : commits s = false := by simpa using fun e => h (hc.mp e)
    cases hz : s.cfg.zBlankOnEntry <;>
      simp [fire, scanZBlank, scanReload, scanZSel, scanRows_eq, scanAdv_eq, State.emit, State.drivePz, hz, h, hc',
        State.setTickPending, fireTrace, Safety.firingTrace, rowsTrace, rowOrder, State.frontRow, blankZ,
        r0, r1, r2, r3, r4, r5, r6, r7, layerSelect_eq_pattern]

section fields
variable (s : State)
theorem fire_cfg : (fire s).cfg = s.cfg := by rw [fire_eq]
theorem fire_ingState : (fire s).ingState = s.ingState := by rw [fire_eq]
theorem fire_rcvCnt : (fire s).rcvCnt = s.rcvCnt := by rw [fire_eq]
theorem fire_mem : (fire s).mem = s.mem := by rw [fire_eq]
theorem fire_rdIdx : (fire s).rdIdx = s.rdIdx := by rw [fire_eq]
theorem fire_wrIdx : (fire s).wrIdx = s.wrIdx := by rw [fire_eq]
theorem fire_count : (fire s).count = s.count := by rw [fire_eq]
theorem fire_dropCnt : (fire s).dropCnt = s.dropCnt := by rw [fire_eq]
theorem fire_sched : (fire s).sched = s.sched := by rw [fire_eq]
theorem fire_freeCount : (fire s).freeCount = s.freeCount := by rw [fire_eq]
theorem fire_px : (fire s).px = 0x00#8 := by rw [fire_eq]
theorem fire_py : (fire s).py = 0xFF#8 := by rw [fire_eq]
theorem fire_pz : (fire s).pz = layerSelect s.layerCursor := by rw [fire_eq]
theorem fire_tickPending : (fire s).tickPending = false := by rw [fire_eq]
theorem fire_layerCursor : (fire s).layerCursor = nextLayer s.layerCursor := by rw [fire_eq]
theorem fire_trace : (fire s).trace = s.trace ++ fireTrace s := by rw [fire_eq]
theorem fire_frontSel : (fire s).frontSel = if commits s then otherBank s.frontSel else s.frontSel := by rw [fire_eq]
theorem fire_grid : (fire s).grid = if commits s then s.grid.clear s.frontSel 0x00#8 else s.grid := by rw [fire_eq]
theorem fire_swapPending : (fire s).swapPending = if commits s then false else s.swapPending := by rw [fire_eq]
end fields

end Sys2Proof.Machine
end

