-- ==== Sys2Proof/Laws/Exec.lean ====
section
/-!
SUPPORT. Inversion of the meanings: if an operation answers a next state, then this is that state and this is why it ran.
-/

namespace Sys2Proof.Machine

open Sys2Proof

variable {s t : State} {b d : Byte}

/-! ### The CONSUMER's shared operation -/

/-- When a form of CONSUME runs, and the state it leaves. -/
theorem consumeForm_next {m : String} {form : Byte → Bool} {act : Byte → State → State} :
    consumeForm m form act s = .next t ↔
      ∃ b, s.swapPending = false ∧ s.count ≠ 0 ∧ s.rdIdx < s.cfg.capacity ∧ s.mem.read s.rdIdx = some b ∧
        form b = true ∧ t = act b s.advanceRead := by
  unfold consumeForm
  rw [whenSelected_next]
  constructor
  · rintro ⟨h, e⟩
    obtain ⟨h1, h2⟩ : s.swapPending = false ∧ s.count ≠ 0 := by simpa [State.empty] using h
    split at e
    · next b u hp =>
      obtain ⟨hf, hu⟩ := whenSelected_next.mp e
      obtain ⟨-, h3, h4, rfl⟩ := State.fifoPop_some.mp hp
      exact ⟨b, h1, h2, h3, h4, hf, by cases hu; rfl⟩
    · cases e
    · cases e
  · rintro ⟨b, h1, h2, h3, h4, hf, rfl⟩
    refine ⟨by simp [State.empty, h1, h2], ?_⟩
    rw [State.fifoPop_some.mpr ⟨h2, h3, h4, rfl⟩]
    exact whenSelected_next.mpr ⟨hf, rfl⟩

/-- A form of CONSUME faults only when the cell to pop holds no value or does not exist. -/
theorem consumeForm_fault {m : String} {form : Byte → Bool} {act : Byte → State → State} {f : Fault}
    (h : consumeForm m form act s = .fault f) : s.memRead s.rdIdx = .error f := by
  obtain ⟨hs, e⟩ := whenSelected_fault.mp h
  obtain ⟨-, h2⟩ : s.swapPending = false ∧ s.count ≠ 0 := by simpa [State.empty] using hs
  unfold State.fifoPop at e
  rw [if_neg h2] at e
  cases hr : s.memRead s.rdIdx with
  | ok v =>
    rw [hr] at e
    exact absurd (whenSelected_fault.mp e).2 (by simp)
  | error g =>
    rw [hr] at e
    cases e
    rfl

/-! ### PRODUCER -/

theorem exec_push_next (h : exec (.push b) s = .next t) :
    s.count < s.cfg.capacity ∧ s.wrIdx < s.cfg.capacity ∧
      t = State.advanceWrite { s with mem := s.mem.write s.wrIdx b } := by
  obtain ⟨hc, e⟩ := whenSelected_next.mp h
  cases hp : s.fifoPush b with
  | ok u =>
    rw [hp] at e
    obtain ⟨hw, rfl⟩ := State.fifoPush_ok.mp hp
    cases e
    exact ⟨of_decide_eq_true hc, hw, rfl⟩
  | error f =>
    rw [hp] at e
    cases e

theorem exec_pushDrop_next (h : exec (.pushDrop b) s = .next t) :
    s.full = true ∧ t = s.countDrop.emit (.drop b) := by
  obtain ⟨hc, e⟩ := whenSelected_next.mp h
  exact ⟨hc, by cases e; rfl⟩

theorem exec_pIdle_next {full : Bool} (h : exec (.pIdle full d) s = .next t) : t = s := by
  cases h
  rfl

/-! ### CONSUMER -/

theorem exec_kHold_next {ne last : Bool} {ing : IngState} (h : exec (.kHold ne ing last d) s = .next t) :
    s.swapPending = true ∧ t = s := by
  obtain ⟨hc, e⟩ := whenSelected_next.mp h
  exact ⟨hc, by cases e; rfl⟩

theorem exec_kEmpty_next {last : Bool} {ing : IngState} (h : exec (.kEmpty ing last d) s = .next t) :
    s.swapPending = false ∧ s.count = 0 ∧ t = s := by
  obtain ⟨hc, e⟩ := whenSelected_next.mp h
  obtain ⟨h1, h2⟩ : s.swapPending = false ∧ s.count = 0 := by simpa [State.empty] using hc
  exact ⟨h1, h2, by cases e; rfl⟩

theorem exec_sof_next {last : Bool} (h : exec (.sof last) s = .next t) :
    s.swapPending = false ∧ s.count ≠ 0 ∧ s.rdIdx < s.cfg.capacity ∧ s.mem.read s.rdIdx = some Config.sof ∧
      s.ingState = .idle ∧ t = s.advanceRead.setDecoder .receiving 0 := by
  obtain ⟨b, h1, h2, h3, h4, hf, rfl⟩ := consumeForm_next.mp h
  simp only [Bool.and_eq_true, beq_iff_eq] at hf
  exact ⟨h1, h2, h3, by rw [h4, hf.2], hf.1, rfl⟩

theorem exec_ign_next {last : Bool} (h : exec (.ign last d) s = .next t) :
    s.swapPending = false ∧ s.count ≠ 0 ∧ s.rdIdx < s.cfg.capacity ∧ s.mem.read s.rdIdx = some d ∧
      d ≠ Config.sof ∧ s.ingState = .idle ∧ t = s.advanceRead := by
  obtain ⟨b, h1, h2, h3, h4, hf, rfl⟩ := consumeForm_next.mp h
  simp only [Bool.and_eq_true, beq_iff_eq, bne_iff_ne] at hf
  obtain ⟨⟨hi, rfl⟩, hn⟩ := hf
  exact ⟨h1, h2, h3, h4, hn, hi, rfl⟩

theorem exec_data_next (h : exec (.data d) s = .next t) :
    s.swapPending = false ∧ s.count ≠ 0 ∧ s.rdIdx < s.cfg.capacity ∧ s.mem.read s.rdIdx = some d ∧
      s.ingState = .receiving ∧ s.rcvCnt ≠ 63 ∧
      t = (s.advanceRead.writeRow (payloadLayer s.rcvCnt) (payloadRow s.rcvCnt) d).setDecoder .receiving
        (nextReceived s.rcvCnt) := by
  obtain ⟨b, h1, h2, h3, h4, hf, rfl⟩ := consumeForm_next.mp h
  simp only [Bool.and_eq_true, beq_iff_eq, State.last, Bool.not_eq_true', beq_eq_false_iff_ne] at hf
  obtain ⟨⟨hi, hl⟩, rfl⟩ := hf
  exact ⟨h1, h2, h3, h4, hi, hl, by simp [hi]⟩

theorem exec_dataLast_next (h : exec (.dataLast d) s = .next t) :
    s.swapPending = false ∧ s.count ≠ 0 ∧ s.rdIdx < s.cfg.capacity ∧ s.mem.read s.rdIdx = some d ∧
      s.ingState = .receiving ∧ s.rcvCnt = 63 ∧
      t = ((s.advanceRead.writeRow 7 7 d).swapRequest).setDecoder .idle 0 := by
  obtain ⟨b, h1, h2, h3, h4, hf, rfl⟩ := consumeForm_next.mp h
  simp only [Bool.and_eq_true, beq_iff_eq, State.last] at hf
  obtain ⟨⟨hi, hl⟩, rfl⟩ := hf
  exact ⟨h1, h2, h3, h4, hi, hl, rfl⟩

/-! ### SCANNER -/

theorem exec_sIdle_next {w sp : Bool} (h : exec (.sIdle w sp) s = .next t) : s.tickPending = false ∧ t = s := by
  obtain ⟨hc, e⟩ := whenSelected_next.mp h
  exact ⟨by simpa using hc, by cases e; rfl⟩

theorem exec_tick_next {sp : Bool} (h : exec (.tick sp) s = .next t) :
    s.tickPending = true ∧ s.layerCursor ≠ 7 ∧ t = fire s := by
  obtain ⟨hc, e⟩ := whenSelected_next.mp h
  obtain ⟨h1, h2⟩ : s.tickPending = true ∧ s.layerCursor ≠ 7 := by simpa [State.wrap] using hc
  exact ⟨h1, h2, by cases e; rfl⟩

theorem exec_tickWrap_next (h : exec (.tickWrap) s = .next t) :
    s.tickPending = true ∧ s.layerCursor = 7 ∧ s.swapPending = false ∧ t = fire s := by
  obtain ⟨hc, e⟩ := whenSelected_next.mp h
  obtain ⟨⟨h1, h2⟩, h3⟩ : (s.tickPending = true ∧ s.layerCursor = 7) ∧ s.swapPending = false := by
    simpa [State.wrap] using hc
  exact ⟨h1, h2, h3, by cases e; rfl⟩

theorem exec_tickWrapSwap_next (h : exec (.tickWrapSwap) s = .next t) :
    s.tickPending = true ∧ s.layerCursor = 7 ∧ s.swapPending = true ∧ t = fire s := by
  obtain ⟨hc, e⟩ := whenSelected_next.mp h
  obtain ⟨⟨h1, h2⟩, h3⟩ : (s.tickPending = true ∧ s.layerCursor = 7) ∧ s.swapPending = true := by
    simpa [State.wrap] using hc
  exact ⟨h1, h2, h3, by cases e; rfl⟩

/-! ### TIMER and RESET -/

theorem exec_expire_next (h : exec (.expire) s = .next t) : s.tickPending = false ∧ t = s.setTickPending true := by
  obtain ⟨hc, e⟩ := whenSelected_next.mp h
  exact ⟨by simpa using hc, by cases e; rfl⟩

theorem exec_xIdle_next (h : exec (.xIdle) s = .next t) : s.tickPending = true ∧ t = s := by
  obtain ⟨hc, e⟩ := whenSelected_next.mp h
  exact ⟨hc, by cases e; rfl⟩

theorem exec_zIdle_next (h : exec (.zIdle) s = .next t) : t = s := by
  cases h
  rfl

theorem exec_reset_next (h : exec (.reset) s = .next t) : t = s.toReset := by
  cases h
  rfl

/-! ### Everything an operation can do -/

/-- The effects of the operations, one case each: `none` for the rows marked "no step", `firing` for the three rows of a
firing. -/
inductive Effect (s : State) : Instr → State → Prop
  | none (i : Instr) (kind : Safety.isNoStep i = true) : Effect s i s
  | push (b : Byte) (room : s.count < s.cfg.capacity) (cell : s.wrIdx < s.cfg.capacity) :
      Effect s (.push b) (State.advanceWrite { s with mem := s.mem.write s.wrIdx b })
  | pushDrop (b : Byte) (full : s.full = true) : Effect s (.pushDrop b) (s.countDrop.emit (.drop b))
  | sof (last : Bool) (free : s.swapPending = false) (stored : s.count ≠ 0) (cell : s.rdIdx < s.cfg.capacity)
      (head : s.mem.read s.rdIdx = some Config.sof) (idle : s.ingState = .idle) :
      Effect s (.sof last) (s.advanceRead.setDecoder .receiving 0)
  | ign (last : Bool) (b : Byte) (free : s.swapPending = false) (stored : s.count ≠ 0) (cell : s.rdIdx < s.cfg.capacity)
      (head : s.mem.read s.rdIdx = some b) (noise : b ≠ Config.sof) (idle : s.ingState = .idle) :
      Effect s (.ign last b) s.advanceRead
  | data (b : Byte) (free : s.swapPending = false) (stored : s.count ≠ 0) (cell : s.rdIdx < s.cfg.capacity)
      (head : s.mem.read s.rdIdx = some b) (receiving : s.ingState = .receiving) (more : s.rcvCnt ≠ 63) :
      Effect s (.data b)
        ((s.advanceRead.writeRow (payloadLayer s.rcvCnt) (payloadRow s.rcvCnt) b).setDecoder .receiving
          (nextReceived s.rcvCnt))
  | dataLast (b : Byte) (free : s.swapPending = false) (stored : s.count ≠ 0) (cell : s.rdIdx < s.cfg.capacity)
      (head : s.mem.read s.rdIdx = some b) (receiving : s.ingState = .receiving) (last : s.rcvCnt = 63) :
      Effect s (.dataLast b) (((s.advanceRead.writeRow 7 7 b).swapRequest).setDecoder .idle 0)
  | firing (i : Instr) (requested : s.tickPending = true) (kind : Safety.isFiring i = true)
      (commit : commits s = true ↔ i = .tickWrapSwap) :
      Effect s i (fire s)
  | expire (idle : s.tickPending = false) : Effect s .expire (s.setTickPending true)
  | reset : Effect s .reset s.toReset

/-- An operation that answers a next state has had one of the effects, under the conditions of its case. -/
theorem exec_effect {i : Instr} (h : exec i s = .next t) : Effect s i t := by
  cases i with
  | pIdle => cases exec_pIdle_next h; exact .none _ rfl
  | push => obtain ⟨h1, h2, rfl⟩ := exec_push_next h; exact .push _ h1 h2
  | pushDrop => obtain ⟨h1, rfl⟩ := exec_pushDrop_next h; exact .pushDrop _ h1
  | kHold => obtain ⟨-, rfl⟩ := exec_kHold_next h; exact .none _ rfl
  | kEmpty => obtain ⟨-, -, rfl⟩ := exec_kEmpty_next h; exact .none _ rfl
  | sof => obtain ⟨h1, h2, h3, h4, h5, rfl⟩ := exec_sof_next h; exact .sof _ h1 h2 h3 h4 h5
  | ign => obtain ⟨h1, h2, h3, h4, h5, h6, rfl⟩ := exec_ign_next h; exact .ign _ _ h1 h2 h3 h4 h5 h6
  | data => obtain ⟨h1, h2, h3, h4, h5, h6, rfl⟩ := exec_data_next h; exact .data _ h1 h2 h3 h4 h5 h6
  | dataLast => obtain ⟨h1, h2, h3, h4, h5, h6, rfl⟩ := exec_dataLast_next h; exact .dataLast _ h1 h2 h3 h4 h5 h6
  | sIdle => obtain ⟨-, rfl⟩ := exec_sIdle_next h; exact .none _ rfl
  | tick =>
    obtain ⟨h1, h2, rfl⟩ := exec_tick_next h
    exact .firing _ h1 rfl ⟨fun hc => absurd ((commits_iff s).mp hc).1 h2, Instr.noConfusion⟩
  | tickWrap =>
    obtain ⟨h1, -, h3, rfl⟩ := exec_tickWrap_next h
    exact .firing _ h1 rfl ⟨fun hc => absurd ((commits_iff s).mp hc).2 (by simp [h3]), Instr.noConfusion⟩
  | tickWrapSwap =>
    obtain ⟨h1, h2, h3, rfl⟩ := exec_tickWrapSwap_next h
    exact .firing _ h1 rfl ⟨fun _ => rfl, fun _ => (commits_iff s).mpr ⟨h2, h3⟩⟩
  | expire => obtain ⟨h1, rfl⟩ := exec_expire_next h; exact .expire h1
  | xIdle => obtain ⟨-, rfl⟩ := exec_xIdle_next h; exact .none _ rfl
  | zIdle => cases exec_zIdle_next h; exact .none _ rfl
  | reset => cases exec_reset_next h; exact .reset

end Sys2Proof.Machine
end

