-- ==== Sys2Proof/Laws/Fetch.lean ====
section
/-!
SUPPORT. What each agent's turn performs, by the state bits of its decode word, and what a step is.
-/

namespace Sys2Proof.Machine

open Sys2Proof

variable (s : State)

theorem fetch_rx (v : Bool) (b : Byte) :
    fetch (.rx v b) s = if v then (if s.full then .pushDrop b else .push b) else .pIdle s.full b := by
  simp [fetch, fetchWord, State.wordP, decode, decodeP]

theorem fetch_consume :
    fetch .consume s =
      if s.swapPending then .kHold (!s.empty) s.ingState s.last s.head
      else if s.empty then .kEmpty s.ingState s.last s.head
      else match s.ingState with
        | .idle => if s.head = Config.sof then .sof s.last else .ign s.last s.head
        | .receiving => if s.last then .dataLast s.head else .data s.head := by
  cases h : s.empty <;> cases hi : s.ingState <;> simp [fetch, fetchWord, State.wordK, decode, decodeK, h, hi]

theorem fetch_tick :
    fetch .tick s =
      if s.tickPending then
        (if s.wrap then (if s.swapPending then .tickWrapSwap else .tickWrap) else .tick s.swapPending)
      else .sIdle s.wrap s.swapPending := by
  simp [fetch, fetchWord, State.wordS, decode, decodeS]

theorem fetch_expire : fetch .expire s = if s.tickPending then .xIdle else .expire := by
  cases h : s.tickPending <;> simp [fetch, fetchWord, State.wordX, decode, decodeX, h]

theorem fetch_rst (r : Bool) : fetch (.rst r) s = if r then .reset else .zIdle := by
  cases r <;> rfl

/-- The decode words do not read the schedule. -/
theorem fetch_sched (t : Stimulus) (l : List Stimulus) : fetch t { s with sched := l } = fetch t s := by
  cases t <;> rfl

/-- The decode words do not read the counter of free choices. -/
theorem fetch_freeCount (t : Stimulus) (n : Nat) : fetch t { s with freeCount := n } = fetch t s := by
  cases t <;> rfl

variable {s}

/-- A step with a turn in the schedule. -/
theorem step_cons {t : Stimulus} {rest : List Stimulus} (h : s.sched = t :: rest) :
    step s = exec (fetch t s) { s with sched := rest } := by
  have e : nextTurn s = (t, { s with sched := rest }) := by simp [nextTurn, h]
  rw [step, e, fetch_sched]

/-- A step with an empty schedule. -/
theorem step_nil (h : s.sched = []) :
    step s = exec (fetch (Config.freeStimulus s.freeCount) s) { s with freeCount := s.freeCount + 1 } := by
  have e : nextTurn s = (Config.freeStimulus s.freeCount, { s with freeCount := s.freeCount + 1 }) := by
    simp [nextTurn, h]
  rw [step, e, fetch_freeCount]

/-- Every step is some turn's operation on a state that differs from this one in the schedule and the counter of free choices
at most. -/
theorem step_turn (s : State) :
    ∃ (t : Stimulus) (l : List Stimulus) (n : Nat),
      step s = exec (fetch t { s with sched := l, freeCount := n }) { s with sched := l, freeCount := n } := by
  cases h : s.sched with
  | nil => exact ⟨_, s.sched, s.freeCount + 1, by rw [step_nil h]; rw [← fetch_freeCount s _ (s.freeCount + 1)]⟩
  | cons t rest => exact ⟨t, rest, s.freeCount, by rw [step_cons h]; rw [← fetch_sched s _ rest]⟩

/-- The head of the FIFO, where its cell holds a value. -/
theorem State.head_eq {b : Byte} (h : s.mem.read s.rdIdx = some b) : s.head = b := by simp [State.head, h]

end Sys2Proof.Machine
end

