-- ==== Sys2Proof/Laws/PerInstr.lean ====
section
/-!
SUPPORT. The statement families made per instruction, one lemma per constructor.
-/

namespace Sys2Proof.Laws.RowMatch

open Sys2Proof

/-- The word of a well-formed operation matches, bit by bit under the mask, the opcode-table row that bears the
operation's mnemonic (30_encoding R98). -/
def Statement (i : Instr) : Prop :=
  i.WellFormed = true →
    ∃ r ∈ opcodeTable, r.mnemonic = i.mnemonic ∧ r.matchesWord (encode i).format (encode i).toNat = true

/-- Reading the match of a format P word under a mask off its bits. -/
theorem of_p {m : String} {w : BitVec 10} {v k : Nat}
    (hr : (⟨m, .p, v, k⟩ : OpcodeRow) ∈ opcodeTable) (h : w &&& BitVec.ofNat 10 k = BitVec.ofNat 10 v)
    (hk : k < 2 ^ 10) (hv : v < 2 ^ 10) :
    ∃ r ∈ opcodeTable, r.mnemonic = m ∧ r.matchesWord (DecodeWord.p w).format (DecodeWord.p w).toNat = true := by
  refine ⟨_, hr, rfl, ?_⟩
  have e := congrArg BitVec.toNat h
  rw [BitVec.toNat_and, BitVec.toNat_ofNat, BitVec.toNat_ofNat, Nat.mod_eq_of_lt hk, Nat.mod_eq_of_lt hv] at e
  simp [OpcodeRow.matchesWord, DecodeWord.format, DecodeWord.toNat, e]

/-- Reading the match of a format K word under a mask off its bits. -/
theorem of_k {m : String} {w : BitVec 12} {v k : Nat}
    (hr : (⟨m, .k, v, k⟩ : OpcodeRow) ∈ opcodeTable) (h : w &&& BitVec.ofNat 12 k = BitVec.ofNat 12 v)
    (hk : k < 2 ^ 12) (hv : v < 2 ^ 12) :
    ∃ r ∈ opcodeTable, r.mnemonic = m ∧ r.matchesWord (DecodeWord.k w).format (DecodeWord.k w).toNat = true := by
  refine ⟨_, hr, rfl, ?_⟩
  have e := congrArg BitVec.toNat h
  rw [BitVec.toNat_and, BitVec.toNat_ofNat, BitVec.toNat_ofNat, Nat.mod_eq_of_lt hk, Nat.mod_eq_of_lt hv] at e
  simp [OpcodeRow.matchesWord, DecodeWord.format, DecodeWord.toNat, e]

theorem pIdle (full : Bool) (d : Byte) : Statement (.pIdle full d) := fun _ =>
  of_p (m := "P_IDLE") (v := 0x000) (k := 0x200) (by decide) (by revert full d; decide) (by decide) (by decide)

theorem push (d : Byte) : Statement (.push d) := fun _ =>
  of_p (m := "PUSH") (v := 0x200) (k := 0x300) (by decide) (by revert d; decide) (by decide) (by decide)

theorem pushDrop (d : Byte) : Statement (.pushDrop d) := fun _ =>
  of_p (m := "PUSH_DROP") (v := 0x300) (k := 0x300) (by decide) (by revert d; decide) (by decide) (by decide)

theorem kHold (ne : Bool) (ing : IngState) (last : Bool) (head : Byte) : Statement (.kHold ne ing last head) := fun _ =>
  of_k (m := "K_HOLD") (v := 0x800) (k := 0x800) (by decide)
    (by cases ne <;> cases ing <;> cases last <;> revert head <;> decide) (by decide) (by decide)

theorem kEmpty (ing : IngState) (last : Bool) (head : Byte) : Statement (.kEmpty ing last head) := fun _ =>
  of_k (m := "K_EMPTY") (v := 0x000) (k := 0xC00) (by decide) (by cases ing <;> cases last <;> revert head <;> decide) (by decide) (by decide)

theorem sof (last : Bool) : Statement (.sof last) := fun _ =>
  of_k (m := "SOF") (v := 0x4F2) (k := 0xEFF) (by decide) (by revert last; decide) (by decide) (by decide)

theorem ign (last : Bool) (b : Byte) : Statement (.ign last b) := fun _ =>
  of_k (m := "IGN") (v := 0x400) (k := 0xE00) (by decide) (by revert last b; decide) (by decide) (by decide)

theorem data (b : Byte) : Statement (.data b) := fun _ =>
  of_k (m := "DATA") (v := 0x600) (k := 0xF00) (by decide) (by revert b; decide) (by decide) (by decide)

theorem dataLast (b : Byte) : Statement (.dataLast b) := fun _ =>
  of_k (m := "DATA_LAST") (v := 0x700) (k := 0xF00) (by decide) (by revert b; decide) (by decide) (by decide)

theorem sIdle (wrap swapPending : Bool) : Statement (.sIdle wrap swapPending) := fun _ =>
  ⟨⟨"S_IDLE", .s, 0x0, 0x4⟩, by decide, rfl, by revert wrap swapPending; decide⟩

theorem tick (swapPending : Bool) : Statement (.tick swapPending) := fun _ =>
  ⟨⟨"TICK", .s, 0x4, 0x6⟩, by decide, rfl, by revert swapPending; decide⟩

theorem tickWrap : Statement .tickWrap := fun _ => ⟨⟨"TICK_WRAP", .s, 0x6, 0x7⟩, by decide, rfl, by decide⟩

theorem tickWrapSwap : Statement .tickWrapSwap := fun _ => ⟨⟨"TICK_WRAP_SWAP", .s, 0x7, 0x7⟩, by decide, rfl, by decide⟩

theorem expire : Statement .expire := fun _ => ⟨⟨"EXPIRE", .x, 0x0, 0x1⟩, by decide, rfl, by decide⟩

theorem xIdle : Statement .xIdle := fun _ => ⟨⟨"X_IDLE", .x, 0x1, 0x1⟩, by decide, rfl, by decide⟩

theorem zIdle : Statement .zIdle := fun _ => ⟨⟨"Z_IDLE", .z, 0x0, 0x1⟩, by decide, rfl, by decide⟩

theorem reset : Statement .reset := fun _ => ⟨⟨"RESET", .z, 0x1, 0x1⟩, by decide, rfl, by decide⟩

end Sys2Proof.Laws.RowMatch
end

