-- ==== Sys2Proof/Laws/Queue.lean ====
section
/-!
SUPPORT. Laws of the FIFO as a queue: which fields its contents depend on, and what taking its head does to them.
-/

namespace Sys2Proof.Machine

open Sys2Proof

variable {s t : State}

/-- The contents depend on `mem`, `rd_idx`, `count` and `C` alone. -/
theorem storedCells_congr (hc : t.count = s.count) (hm : t.mem = s.mem) (hr : t.rdIdx = s.rdIdx) (hp : t.cfg = s.cfg) :
    Safety.storedCells t = Safety.storedCells s := by
  simp [Safety.storedCells, hc, hm, hr, hp]

/-- An empty FIFO has no contents. -/
theorem storedCells_empty (h : s.count = 0) : Safety.storedCells s = [] := by simp [Safety.storedCells, h]

/-- The oldest cell is the one at `rd_idx`; the others are the contents once it is taken. -/
theorem storedCells_advanceRead (hc : s.count ≠ 0) (hr : s.rdIdx < s.cfg.capacity) :
    Safety.storedCells s = s.mem.read s.rdIdx :: Safety.storedCells s.advanceRead := by
  obtain ⟨n, hn⟩ : ∃ n, s.count = n + 1 := ⟨s.count - 1, by omega⟩
  simp only [Safety.storedCells, State.advanceRead_count, State.advanceRead_mem, State.advanceRead_rdIdx,
    State.advanceRead_cfg, hn, List.range_succ_eq_map]
  simp only [List.map_cons, Nat.add_zero, Nat.mod_eq_of_lt hr, List.map_map, Nat.add_sub_cancel, nextIndex,
    List.cons.injEq, true_and]
  refine List.map_congr_left fun k _ => ?_
  simp only [Function.comp, Nat.mod_add_mod]
  congr 2
  omega

/-- Two places of the circular buffer less than `C` apart are different cells. -/
theorem cell_ne {c r n k : Nat} (hk : k < n) (hn : n < c) : (r + k) % c ≠ (r + n) % c := by
  intro h
  have := Nat.ModEq.add_left_cancel' r (show r + k ≡ r + n [MOD c] from h)
  rw [Nat.ModEq, Nat.mod_eq_of_lt (by omega), Nat.mod_eq_of_lt hn] at this
  omega

end Sys2Proof.Machine
end

