-- ==== Sys2Proof/Laws/Run.lean ====
section
/-!
SUPPORT. Laws of a run of several steps and of the operations it performs.
-/

namespace Sys2Proof.Machine

open Sys2Proof

variable {s t : State} {k m : Nat}

theorem run_zero : Host.Core.run Sys2Proof.core 0 s = .next s := rfl

/-- A run whose first step is known. -/
theorem run_succ (h : step s = .next t) :
    Host.Core.run Sys2Proof.core (k + 1) s = Host.Core.run Sys2Proof.core k t := by
  have h' : Sys2Proof.core.step s = .next t := h
  simp only [Host.Core.run, h']

/-- A run continued from where a shorter one ended. -/
theorem run_append {s t : Sys2Proof.core.State} (h : Host.Core.run Sys2Proof.core k s = .next t) :
    Host.Core.run Sys2Proof.core (k + m) s = Host.Core.run Sys2Proof.core m t := by
  induction k generalizing s with
  | zero => cases h; simp
  | succ k ih =>
    rw [Nat.add_right_comm]
    simp only [Host.Core.run] at h ⊢
    cases e : Sys2Proof.core.step s with
    | next u => simp only [e] at h ⊢; exact ih h
    | fault => simp only [e] at h; cases h
    | refused => simp only [e] at h; cases h

/-- The first operation of a run, and those of what is left of it. -/
theorem performed_succ (h : step s = .next t) :
    Safety.performed (k + 1) s = fetch (nextTurn s).1 (nextTurn s).2 :: Safety.performed k t := by
  rw [Safety.performed, h]

/-- Taking a turn changes the schedule and the counter of free choices at most. -/
theorem nextTurn_state (s : State) :
    (nextTurn s).2 = { s with sched := (nextTurn s).2.sched, freeCount := (nextTurn s).2.freeCount } := by
  unfold nextTurn
  split <;> rfl

/-- A step that answers a next state has the effect of the operation it performs. -/
theorem step_effect (h : step s = .next t) : Effect (nextTurn s).2 (fetch (nextTurn s).1 (nextTurn s).2) t :=
  exec_effect h

end Sys2Proof.Machine
end

