-- ==== Sys2Proof/Tests/Slice0.lean ====
section
/-!
SUPPORT. The model's own tests: ill-formed terms, words written out from the encodings, single steps against the vectors of
95_test_vectors, placed words, and for every statement with hypotheses a state that meets them.
-/

namespace Sys2Proof.Tests

open Sys2Proof Sys2Proof.Machine Sys2Proof.Safety

/-! ### Small states -/

/-- The next state of an outcome, if it is one. -/
def nextOf : Host.Outcome State Fault Refusal → Option State
  | .next t => some t
  | .fault _ => none
  | .refused _ => none

/-- The reset state with another capacity. -/
def withCapacity (c : Nat) : State := { State.reset with cfg := { State.reset.cfg with capacity := c } }

/-- A FIFO of capacity `c` holding `n` bytes from index `rd` on, in the given cells. -/
def fifo (c rd n : Nat) (cells : Memory) : State :=
  { withCapacity c with mem := cells, rdIdx := rd, wrIdx := (rd + n) % c, count := n }

/-- One stored byte, at index 31 of 32, in IDLE. -/
def oneByte (b : Byte) : State := fifo 32 31 1 [(31, b)]

/-- One stored byte and a frame in progress at payload byte `n`. -/
def receiving (n : Fin 64) (b : Byte) : State := { oneByte b with ingState := .receiving, rcvCnt := n }

/-- A requested firing at a cursor. -/
def firing (z : Fin 8) (pending : Bool) : State :=
  { State.reset with layerCursor := z, tickPending := true, swapPending := pending }

/-- The fields of the FIFO: `rd_idx`, `wr_idx`, `count`, `drop_cnt`. -/
def fifoFields (s : State) : Nat × Nat × Nat × BitVec 16 := (s.rdIdx, s.wrIdx, s.count, s.dropCnt)

/-- The fields of the decoder and `swap_pending`. -/
def decoderFields (s : State) : IngState × Nat × Bool := (s.ingState, s.rcvCnt.val, s.swapPending)

/-- The invariants as a check that evaluates. -/
def invCheck (s : State) : Bool :=
  decide (0 < s.cfg.capacity) && decide s.mem.wf && decide (∀ c ∈ s.mem, c.1 < s.cfg.capacity) &&
  decide (s.count ≤ s.cfg.capacity) && decide (s.rdIdx < s.cfg.capacity) &&
  decide (s.wrIdx = (s.rdIdx + s.count) % s.cfg.capacity) &&
  decide (∀ k, k < s.count → (s.mem.read ((s.rdIdx + k) % s.cfg.capacity)).isSome = true) &&
  decide (s.ingState = .idle → s.rcvCnt = 0) && decide (s.swapPending = true → s.ingState = .idle) &&
  decide (s.swapPending = false → ∀ z y : Fin 8, s.rcvCnt.val ≤ 8 * z.val + y.val → s.backRow z y = 0x00#8)

theorem inv_of_check {s : State} (h : invCheck s = true) : StateInv s := by
  simp only [invCheck, Bool.and_eq_true, decide_eq_true_eq] at h
  obtain ⟨⟨⟨⟨⟨⟨⟨⟨⟨h0, h1⟩, h2⟩, h3⟩, h4⟩, h5⟩, h6⟩, h7⟩, h8⟩, h9⟩ := h
  exact ⟨h0, h1, h2, h3, h4, h5, h6, h7, h8, h9⟩

/-! ### Well-formedness -/

theorem test_ign_of_the_marker_is_ill_formed : (Instr.ign false 0xF2#8).WellFormed = false := by decide
theorem test_ign_of_another_byte_is_well_formed : (Instr.ign true 0x72#8).WellFormed = true := by decide

/-! ### Decoding: every row, on a word written out from its pattern in 30_encoding R98 -/

theorem test_decode_pIdle : decode (.p 0b0_1_00111100#10) = .pIdle true 0x3C#8 := by decide
theorem test_decode_push : decode (.p 0b1_0_10100111#10) = .push 0xA7#8 := by decide
theorem test_decode_pushDrop : decode (.p 0b1_1_01010101#10) = .pushDrop 0x55#8 := by decide
theorem test_decode_kHold : decode (.k 0b1_1_0_0_11110010#12) = .kHold true .idle false 0xF2#8 := by decide
theorem test_decode_kEmpty : decode (.k 0b0_0_1_0_00000000#12) = .kEmpty .receiving false 0x00#8 := by decide
theorem test_decode_sof : decode (.k 0b0_1_0_1_11110010#12) = .sof true := by decide
theorem test_decode_ign : decode (.k 0b0_1_0_0_01110010#12) = .ign false 0x72#8 := by decide
theorem test_decode_data : decode (.k 0b0_1_1_0_11110010#12) = .data 0xF2#8 := by decide
theorem test_decode_dataLast : decode (.k 0b0_1_1_1_11110010#12) = .dataLast 0xF2#8 := by decide
theorem test_decode_sIdle : decode (.s 0b0_1_0#3) = .sIdle true false := by decide
theorem test_decode_tick : decode (.s 0b1_0_1#3) = .tick true := by decide
theorem test_decode_tickWrap : decode (.s 0b1_1_0#3) = .tickWrap := by decide
theorem test_decode_tickWrapSwap : decode (.s 0b1_1_1#3) = .tickWrapSwap := by decide
theorem test_decode_expire : decode (.x 0b0#1) = .expire := by decide
theorem test_decode_xIdle : decode (.x 0b1#1) = .xIdle := by decide
theorem test_decode_zIdle : decode (.z 0b0#1) = .zIdle := by decide
theorem test_decode_reset : decode (.z 0b1#1) = .reset := by decide
theorem test_decode_too_wide : decodeBits .p 0x400 = .error (.tooWide .p 0x400) := by decide

/-- P4: the word of a held CONSUMER, and V2 row 12: the last payload byte. -/
theorem test_encode_words :
    encode (.kHold true .idle false 0xF2#8) = .k 0xCF2#12 ∧ encode (.dataLast 0xFF#8) = .k 0x7FF#12 ∧
      encode (.pushDrop 0x01#8) = .p 0x301#10 := by decide

/-! ### Placed words -/

theorem test_placed_push :
    (nextOf (step (State.reset.withFetchWord 16 0x2A7))).map (fun t => (t.count, t.mem)) =
      some (1, [(0, 0xA7#8)]) := by decide
theorem test_placed_dataLast :
    (nextOf (step (State.reset.withFetchWord 16 0x7FF))).map decoderFields = some (.idle, 0, true) := by decide
theorem test_placed_tickWrap :
    (nextOf (step (State.reset.withFetchWord 8 0x6))).map (fun t => (t.layerCursor, t.pz)) = some (0, 0x80#8) := by
  decide

/-! ### PRODUCER (V1) -/

/-- 43_fifo R180: no byte presented, nothing changes. -/
theorem test_pIdle : (nextOf (exec (.pIdle false 0x00#8) (oneByte 0x13#8))).map fifoFields = some (31, 0, 1, 0#16) := by
  decide
/-- V1 row 2: `wr_idx` wraps. -/
theorem test_push_wraps :
    (nextOf (exec (.push 0xA7#8) (fifo 32 5 26 []))).map (fun t => (fifoFields t, t.mem)) =
      some ((5, 0, 27, 0#16), [(31, 0xA7#8)]) := by decide
/-- V1 row 8: with `C = 1` one byte fills the FIFO. -/
theorem test_push_capacity_one :
    (nextOf (exec (.push 0x9C#8) (withCapacity 1))).map (fun t => (fifoFields t, t.full)) =
      some ((0, 0, 1, 0#16), true) := by decide
/-- V1 row 5: the counter reaches its limit. -/
theorem test_pushDrop_counts :
    (nextOf (exec (.pushDrop 0xF2#8) { fifo 32 7 32 [] with dropCnt := 0xFFFE#16 })).map
      (fun t => (fifoFields t, t.trace)) = some ((7, 7, 32, 0xFFFF#16), [.drop 0xF2#8]) := by decide
/-- V1 row 6: the counter is saturated. -/
theorem test_pushDrop_saturates :
    (nextOf (exec (.pushDrop 0x01#8) { fifo 32 7 32 [] with dropCnt := 0xFFFF#16 })).map fifoFields =
      some (7, 7, 32, 0xFFFF#16) := by decide

/-! ### CONSUMER (V1, V2) -/

/-- V2 row 14: held, the byte stays in the FIFO. -/
theorem test_kHold :
    fetch .consume { oneByte 0xF2#8 with swapPending := true } = .kHold true .idle false 0xF2#8 ∧
    (nextOf (exec (.kHold true .idle false 0xF2#8) { oneByte 0xF2#8 with swapPending := true })).map fifoFields =
      some (31, 0, 1, 0#16) := by decide
/-- V2 row 15: nothing to pop in the middle of a frame. -/
theorem test_kEmpty :
    (nextOf (exec (.kEmpty .receiving false 0x00#8) { State.reset with ingState := .receiving, rcvCnt := 12 })).map
      decoderFields = some (.receiving, 12, false) := by decide
/-- V2 row 1, with the POP of V1 row 10. -/
theorem test_sof :
    (nextOf (exec (.sof false) (oneByte 0xF2#8))).map (fun t => (decoderFields t, fifoFields t)) =
      some ((.receiving, 0, false), (0, 0, 0, 0#16)) := by decide
/-- V1 row 10: `rd_idx` wraps, the FIFO becomes empty. -/
theorem test_ign_wraps :
    (nextOf (exec (.ign false 0xA7#8) (oneByte 0xA7#8))).map (fun t => (fifoFields t, t.empty, t.cmdPending)) =
      some ((0, 0, 0, 0#16), true, false) := by decide
/-- V1 row 11: a POP from a full FIFO. -/
theorem test_ign_from_full :
    (nextOf (exec (.ign false 0x13#8) (fifo 32 7 32 [(7, 0x13#8)]))).map (fun t => (fifoFields t, t.full)) =
      some ((8, 7, 31, 0#16), false) := by decide
/-- V2 row 9: a marker inside a frame is data, written to layer 3 row 6. -/
theorem test_data_marker :
    (nextOf (exec (.data 0xF2#8) (receiving 30 0xF2#8))).map (fun t => (decoderFields t, t.grid.row 1 3 6)) =
      some ((.receiving, 31, false), 0xF2#8) := by decide
/-- V2 row 11: the last byte but one. -/
theorem test_data_last_but_one :
    (nextOf (exec (.data 0x3C#8) (receiving 62 0x3C#8))).map (fun t => (decoderFields t, t.grid.row 1 7 6)) =
      some ((.receiving, 63, false), 0x3C#8) := by decide
/-- V2 row 12. -/
theorem test_dataLast :
    (nextOf (exec (.dataLast 0xFF#8) (receiving 63 0xFF#8))).map (fun t => (decoderFields t, t.grid.row 1 7 7)) =
      some ((.idle, 0, true), 0xFF#8) := by decide
/-- V2, the note under the table: with `front_sel = 1` the write goes to the other bank. -/
theorem test_dataLast_other_bank :
    (nextOf (exec (.dataLast 0xFF#8) { receiving 63 0xFF#8 with frontSel := 1 })).map
      (fun t => (t.grid.row 0 7 7, t.grid.row 1 7 7)) = some (0xFF#8, 0x00#8) := by decide

/-! ### SCANNER (V3, V4, V5) -/

/-- V4 corner 3: no firing is requested. -/
theorem test_sIdle :
    fetch .tick State.reset = .sIdle false false ∧
    (nextOf (exec (.sIdle false false) State.reset)).map (fun t => (t.layerCursor, t.trace)) = some (0, []) := by decide
/-- V5 row 2. -/
theorem test_tick :
    (nextOf (exec (.tick false) (firing 2 false))).map (fun t => (t.layerCursor, t.pz, t.tickPending, t.trace.length)) =
      some (3, 0x04#8, false, 43) := by decide
/-- V4, `Z_BLANK_ON_ENTRY = false`: the first six events of a firing of layer 0 whose row 0 is `0x01`. -/
theorem test_tick_without_zblank :
    (nextOf (exec (.tick false) { firing 0 false with
      cfg := { State.reset.cfg with zBlankOnEntry := false }
      grid := State.reset.grid.setRow 0 0 0 0x01#8 })).map (fun t => (t.trace.take 6, t.trace.length)) =
      some ([.port .px 0x01#8, .port .py 0xFE#8, .hold 0, .port .py 0xFF#8, .port .px 0x00#8, .port .px 0x00#8], 42) := by
  decide
/-- V3 row 7. -/
theorem test_tickWrap :
    (nextOf (exec .tickWrap (firing 7 false))).map (fun t => (t.layerCursor, t.frontSel, t.trace.countP Event.isSwap)) =
      some (0, 0, 0) := by decide
/-- V3 row 6 and V4 corner 7: the old front bank is put out, then the banks exchange roles. -/
theorem test_tickWrapSwap :
    (nextOf (exec .tickWrapSwap { firing 7 true with
      grid := (State.reset.grid.setRow 0 7 0 0xAA#8).setRow 1 7 0 0x55#8 })).map
        (fun t => (t.frontSel, t.swapPending, t.grid.row 0 7 0, t.grid.row 1 7 0)) =
      some (1, false, 0x00#8, 0x55#8) := by decide
/-- V3 row 6: the order of the last events, and V4 corner 7: what row 0 puts out. -/
theorem test_tickWrapSwap_trace :
    (nextOf (exec .tickWrapSwap { firing 7 true with
      grid := (State.reset.grid.setRow 0 7 0 0xAA#8).setRow 1 7 0 0x55#8 })).map
        (fun t => (t.trace.take 2, t.trace.drop 41)) =
      some ([.port .pz 0x00#8, .port .px 0xAA#8], [.port .pz 0x80#8, .swap, .tReload]) := by decide

/-! ### TIMER and RESET (V5) -/

/-- V5 row 1. -/
theorem test_expire : (nextOf (exec .expire State.reset)).map (fun t => (t.tickPending, t.trace)) = some (true, []) := by
  decide
/-- V4 corner 4. -/
theorem test_xIdle :
    fetch .expire (firing 2 false) = .xIdle ∧
      (nextOf (exec .xIdle (firing 2 false))).map (fun t => t.tickPending) = some true := by decide
theorem test_zIdle : (nextOf (exec .zIdle (firing 2 true))).map (fun t => t.layerCursor) = some 2 := by decide
/-- V5 row 3. -/
theorem test_reset :
    (nextOf (exec .reset { receiving 40 0x13#8 with
      swapPending := true, frontSel := 1, layerCursor := 5, dropCnt := 9#16, tickPending := true, pz := 0x10#8 })).map
        (fun t => (decoderFields t, t.frontSel, t.layerCursor, t.pz, t.tickPending)) =
      some ((.idle, 0, false), 0, 0, 0x00#8, false) := by decide
/-- V5 row 3: the FIFO is emptied and the grid cleared; `mem` is not written. -/
theorem test_reset_storage :
    (nextOf (exec .reset { oneByte 0x13#8 with
      dropCnt := 9#16, grid := State.reset.grid.setRow 1 6 5 0xC3#8 })).map
        (fun t => (fifoFields t, t.grid.row 1 6 5, t.mem)) = some ((0, 0, 0, 0#16), 0x00#8, [(31, 0x13#8)]) := by decide

/-! ### Witnesses: for every statement with hypotheses, a state and operands that meet all of them, clause by clause -/

theorem witness_DecodeOfEncodeGivesTheOperation : ∃ i : Instr, i.WellFormed = true := ⟨.ign false 0x72#8, by decide⟩

/-- Both modes, the marker and its neighbour, and the two sides of byte 63. -/
theorem witness_StreamByteMeansWhatTheModeSays :
    let ok := fun (s : State) (b : Byte) => s.swapPending = false ∧ s.count ≠ 0 ∧ s.mem.read s.rdIdx = some b
    (ok (oneByte 0xF2#8) 0xF2#8 ∧ (oneByte 0xF2#8).ingState = .idle) ∧
    (ok (oneByte 0xF3#8) 0xF3#8 ∧ (oneByte 0xF3#8).ingState = .idle ∧ 0xF3#8 ≠ 0xF2#8) ∧
    (ok (receiving 62 0xF2#8) 0xF2#8 ∧ (receiving 62 0xF2#8).ingState = .receiving ∧
      (receiving 62 0xF2#8).rcvCnt.val < 63) ∧
    (ok (receiving 63 0xF2#8) 0xF2#8 ∧ (receiving 63 0xF2#8).ingState = .receiving ∧
      (receiving 63 0xF2#8).rcvCnt.val = 63) := by decide

theorem witness_NoByteIsIllegal :
    let ok := fun (s : State) (b : Byte) =>
      s.swapPending = false ∧ s.count ≠ 0 ∧ s.rdIdx < s.cfg.capacity ∧ s.mem.read s.rdIdx = some b
    (ok (oneByte 0x00#8) 0x00#8 ∧ (oneByte 0x00#8).ingState = .idle) ∧
    (ok (oneByte 0xF2#8) 0xF2#8 ∧ (oneByte 0xF2#8).ingState = .idle) ∧
    (ok (receiving 0 0xF2#8) 0xF2#8 ∧ (receiving 0 0xF2#8).ingState = .receiving) ∧
    (ok (receiving 63 0xFF#8) 0xFF#8 ∧ (receiving 63 0xFF#8).ingState = .receiving) := by decide

theorem witness_SelectedOperationIsNeverRefused :
    State.reset.count ≤ State.reset.cfg.capacity ∧ fetch (turnOf .expire) State.reset = .expire := by decide

/-- Every condition of a refusal, one state each. -/
theorem witness_UnselectedOperationIsRefused :
    let full := fifo 1 0 1 [(0, 0x13#8)]
    let held := { oneByte 0x13#8 with swapPending := true }
    let ok := fun (s : State) (b : Byte) =>
      s.swapPending = false ∧ s.count ≠ 0 ∧ s.rdIdx < s.cfg.capacity ∧ s.mem.read s.rdIdx = some b
    full.cfg.capacity ≤ full.count ∧ State.reset.count ≠ State.reset.cfg.capacity ∧ State.reset.swapPending = false ∧
    (held.swapPending = true ∧ full.count ≠ 0) ∧ State.reset.count = 0 ∧
    (ok (oneByte 0xF3#8) 0xF3#8 ∧ ¬ ((oneByte 0xF3#8).ingState = .idle ∧ 0xF3#8 = 0xF2#8)) ∧
    (ok (oneByte 0xF2#8) 0xF2#8 ∧ ¬ ((oneByte 0xF2#8).ingState = .idle ∧ 0xF2#8 = 0xF2#8 ∧ 0xF2#8 ≠ 0xF2#8)) ∧
    (ok (receiving 63 0x3C#8) 0x3C#8 ∧
      ¬ ((receiving 63 0x3C#8).ingState = .receiving ∧ (receiving 63 0x3C#8).rcvCnt.val < 63 ∧ 0x3C#8 = 0x3C#8)) ∧
    (ok (receiving 62 0x3C#8) 0x3C#8 ∧
      ¬ ((receiving 62 0x3C#8).ingState = .receiving ∧ (receiving 62 0x3C#8).rcvCnt.val = 63 ∧ 0x3C#8 = 0x3C#8)) ∧
    ((firing 7 false).tickPending = true ∧ (firing 7 false).layerCursor = 7) ∧
    ((firing 6 true).layerCursor ≠ 7 ∧ (firing 7 true).swapPending = true ∧ (firing 7 false).swapPending = false) ∧
    State.reset.tickPending = false := by decide

/-- The first index outside the FIFO, and a cell without a value. -/
theorem witness_StorageAccessFaults :
    (let s := { fifo 32 0 1 [] with wrIdx := 32, rdIdx := 32 };
      s.count < s.cfg.capacity ∧ s.cfg.capacity ≤ s.wrIdx ∧ s.swapPending = false ∧ s.count ≠ 0 ∧
        s.cfg.capacity ≤ s.rdIdx) ∧
    (let s := fifo 32 31 1 [];
      s.swapPending = false ∧ s.count ≠ 0 ∧ s.rdIdx < s.cfg.capacity ∧ s.mem.read s.rdIdx = none) := by decide

theorem witness_PayloadPositionIsDivAndMod :
    (∃ t, exec (.data 0xF2#8) (receiving 62 0xF2#8) = .next t) ∧
      (∃ t, exec (.dataLast 0xFF#8) (receiving 63 0xFF#8) = .next t) := ⟨⟨_, rfl⟩, ⟨_, rfl⟩⟩

/-- The last index but one, the last index, and the only index of a FIFO of one byte. -/
theorem witness_IndexIncrementWraps : (30 < 32 ∧ 30 + 1 < 32) ∧ (31 < 32 ∧ 31 + 1 = 32) ∧ (0 < 1 ∧ 0 + 1 = 1) := by
  decide

theorem witness_StepRunsTheFetchedOperation :
    (∃ (s : State) (turn : Stimulus) (rest : List Stimulus), s.sched = turn :: rest) ∧ State.reset.sched = [] :=
  ⟨⟨{ State.reset with sched := [.expire, .tick] }, .expire, [.tick], rfl⟩, rfl⟩

theorem witness_PlacedOperationRunsNext : (Instr.sof true).WellFormed = true ∧ StateInv (oneByte 0x13#8) :=
  ⟨rfl, inv_of_check (by decide)⟩

theorem witness_NoStepRowsChangeNothing :
    { State.reset with swapPending := true }.swapPending = true ∧
    (State.reset.swapPending = false ∧ State.reset.count = 0) ∧
    State.reset.tickPending = false ∧ (firing 7 true).tickPending = true := by decide

theorem witness_StepKeepsTheParameters : ∃ t, step { State.reset with sched := [.expire] } = .next t := ⟨_, rfl⟩

/-- The first byte, the byte that wraps the index, the byte that fills the FIFO, and the FIFO of one byte. -/
theorem witness_PushStoresTheByte :
    let ok := fun s : State => s.count < s.cfg.capacity ∧ s.wrIdx < s.cfg.capacity
    ok State.reset ∧ ok (fifo 32 5 26 []) ∧ ok (fifo 32 7 31 []) ∧ ok (withCapacity 1) := by decide

theorem witness_PushDropRefusesTheByte :
    (fifo 32 7 32 []).count = (fifo 32 7 32 []).cfg.capacity ∧ (fifo 1 0 1 []).count = (fifo 1 0 1 []).cfg.capacity := by
  decide

theorem witness_PushAppendsToTheQueue :
    StateInv (oneByte 0x13#8) ∧ ∃ t, exec (.push 0x14#8) (oneByte 0x13#8) = .next t :=
  ⟨inv_of_check (by decide), ⟨_, rfl⟩⟩

theorem witness_FifoHoldsCapacityBytesThenDrops :
    let s := { withCapacity 2 with sched := [.rx true 0x01#8, .rx true 0x02#8, .rx true 0x03#8, .tick] }
    StateInv s ∧ s.count = 0 ∧ [0x01#8, 0x02#8].length = s.cfg.capacity ∧
      s.sched = [0x01#8, 0x02#8].map (Stimulus.rx true) ++ .rx true 0x03#8 :: [.tick] :=
  ⟨inv_of_check (by decide), by decide, by decide, by decide⟩

theorem witness_ProducerWritesOnlyItsOwnState :
    (∃ t, exec (.push 0x14#8) (oneByte 0x13#8) = .next t) ∧
    (∃ t, exec (.pushDrop 0x14#8) (fifo 1 0 1 [(0, 0x13#8)]) = .next t) ∧
    (∃ t, exec (.pIdle true 0x14#8) (fifo 1 0 1 [(0, 0x13#8)]) = .next t) := ⟨⟨_, rfl⟩, ⟨_, rfl⟩, ⟨_, rfl⟩⟩

theorem witness_SofStartsAFrame :
    let s := oneByte 0xF2#8
    s.swapPending = false ∧ s.count ≠ 0 ∧ s.rdIdx < s.cfg.capacity ∧ s.mem.read s.rdIdx = some 0xF2#8 ∧
      s.ingState = .idle := by decide

theorem witness_IgnDiscardsTheByte :
    let s := oneByte 0xF3#8
    s.swapPending = false ∧ s.count ≠ 0 ∧ s.rdIdx < s.cfg.capacity ∧ s.mem.read s.rdIdx = some 0xF3#8 ∧
      s.ingState = .idle ∧ 0xF3#8 ≠ 0xF2#8 := by decide

/-- The first payload byte, the first byte of layer 1, and the last byte but one. -/
theorem witness_DataWritesItsRow :
    let ok := fun (s : State) (b : Byte) (z y : Fin 8) =>
      s.swapPending = false ∧ s.count ≠ 0 ∧ s.rdIdx < s.cfg.capacity ∧ s.mem.read s.rdIdx = some b ∧
        s.ingState = .receiving ∧ s.rcvCnt.val < 63 ∧ z.val = s.rcvCnt.val / 8 ∧ y.val = s.rcvCnt.val % 8
    ok (receiving 0 0xF2#8) 0xF2#8 0 0 ∧ ok (receiving 8 0x10#8) 0x10#8 1 0 ∧ ok (receiving 62 0x3C#8) 0x3C#8 7 6 := by
  decide

theorem witness_DataLastCompletesTheFrame :
    let s := receiving 63 0xF2#8
    s.swapPending = false ∧ s.count ≠ 0 ∧ s.rdIdx < s.cfg.capacity ∧ s.mem.read s.rdIdx = some 0xF2#8 ∧
      s.ingState = .receiving ∧ s.rcvCnt.val = 63 := by decide

/-- A FIFO of one byte, a full FIFO of many, and the last index. -/
theorem witness_PopTakesTheHead :
    let ok := fun (s : State) (b : Byte) => s.count ≠ 0 ∧ s.rdIdx < s.cfg.capacity ∧ s.mem.read s.rdIdx = some b ∧
      s.count ≤ s.cfg.capacity
    ok (fifo 1 0 1 [(0, 0x9C#8)]) 0x9C#8 ∧ ok (fifo 32 7 32 [(7, 0x13#8)]) 0x13#8 ∧ ok (oneByte 0xA7#8) 0xA7#8 := by
  decide

theorem witness_ConsumeTakesTheOldestByte :
    (∃ t, exec (.sof false) (oneByte 0xF2#8) = .next t) ∧ (∃ t, exec (.ign false 0x41#8) (oneByte 0x41#8) = .next t) ∧
    (∃ t, exec (.data 0x3C#8) (receiving 62 0x3C#8) = .next t) ∧
    (∃ t, exec (.dataLast 0xFF#8) (receiving 63 0xFF#8) = .next t) := ⟨⟨_, rfl⟩, ⟨_, rfl⟩, ⟨_, rfl⟩, ⟨_, rfl⟩⟩

theorem witness_ConsumerWritesOnlyItsOwnState :
    (∃ t, exec (.kHold true .idle false 0xF2#8) { oneByte 0xF2#8 with swapPending := true } = .next t) ∧
    (∃ t, exec (.kEmpty .idle false 0xF2#8) State.reset = .next t) ∧
    (∃ t, exec (.sof true) (oneByte 0xF2#8) = .next t) ∧ (∃ t, exec (.ign true 0x41#8) (oneByte 0x41#8) = .next t) ∧
    (∃ t, exec (.data 0x3C#8) (receiving 8 0x3C#8) = .next t) ∧
    (∃ t, exec (.dataLast 0xFF#8) (receiving 63 0xFF#8) = .next t) :=
  ⟨⟨_, rfl⟩, ⟨_, rfl⟩, ⟨_, rfl⟩, ⟨_, rfl⟩, ⟨_, rfl⟩, ⟨_, rfl⟩⟩

theorem witness_OnlyDataLastAndResetLeaveReceiving :
    (∃ t, exec (.dataLast 0xFF#8) (receiving 63 0xFF#8) = .next t ∧ (receiving 63 0xFF#8).ingState = .receiving ∧
      t.ingState = .idle) ∧
    (∃ t, exec .reset (receiving 12 0xFF#8) = .next t ∧ (receiving 12 0xFF#8).ingState = .receiving ∧
      t.ingState = .idle) := ⟨⟨_, rfl, rfl, rfl⟩, ⟨_, rfl, rfl, rfl⟩⟩

theorem witness_PushAndConsumeCommuteInside :
    StateInv (oneByte 0xF2#8) ∧ (oneByte 0xF2#8).swapPending = false ∧ 0 < (oneByte 0xF2#8).count ∧
      (oneByte 0xF2#8).count < (oneByte 0xF2#8).cfg.capacity := ⟨inv_of_check (by decide), by decide, by decide, by decide⟩

/-- V1 rows 14 and 15, and the FIFO of one byte. -/
theorem witness_PushAndConsumeOrderMattersAtTheEnds :
    (let s := fifo 4 2 4 [(0, 0x01#8), (1, 0x02#8), (2, 0x11#8), (3, 0x12#8)];
      StateInv s ∧ s.swapPending = false ∧ s.count = s.cfg.capacity) ∧
    (let s := fifo 1 0 1 [(0, 0x9C#8)];
      StateInv s ∧ s.swapPending = false ∧ s.count = s.cfg.capacity) ∧
    (let s := fifo 4 1 0 [];
      StateInv s ∧ s.swapPending = false ∧ s.count = 0) :=
  ⟨⟨inv_of_check (by decide), by decide, by decide⟩, ⟨inv_of_check (by decide), by decide, by decide⟩,
    ⟨inv_of_check (by decide), by decide, by decide⟩⟩

/-- A FIFO of 66 bytes that holds a whole frame and one byte more. -/
def frameState : State :=
  { fifo 66 0 66 ((0, 0xF2#8) :: (List.range 64).map (fun n => (n + 1, BitVec.ofNat 8 n)) ++ [(65, 0x13#8)]) with
    sched := List.replicate 65 .consume ++ [.tick] }

theorem witness_CompleteFrameFillsTheBackBank :
    StateInv frameState ∧ frameState.ingState = .idle ∧ frameState.swapPending = false ∧
      ((List.range 64).map (BitVec.ofNat 8)).length = 64 ∧
      storedCells frameState = some 0xF2#8 :: (((List.range 64).map (BitVec.ofNat 8)).map some ++ [some 0x13#8]) ∧
      frameState.sched = List.replicate 65 .consume ++ [.tick] :=
  ⟨inv_of_check (by decide), rfl, rfl, by decide, by decide, rfl⟩

/-- The lowest and the highest cursor of TICK. -/
theorem witness_TickPaintsItsLayer :
    ((firing 0 false).tickPending = true ∧ (firing 0 false).layerCursor.val < 7) ∧
      ((firing 6 true).tickPending = true ∧ (firing 6 true).layerCursor.val < 7) := by decide

theorem witness_TickWrapPaintsTheTopLayer :
    (firing 7 false).tickPending = true ∧ (firing 7 false).layerCursor = 7 ∧ (firing 7 false).swapPending = false := by
  decide

theorem witness_TickWrapSwapCommits :
    (firing 7 true).tickPending = true ∧ (firing 7 true).layerCursor = 7 ∧ (firing 7 true).swapPending = true := by
  decide

theorem witness_ScannerWritesOnlyItsOwnState :
    (∃ t, exec (.sIdle true false) State.reset = .next t) ∧ (∃ t, exec (.tick true) (firing 6 true) = .next t) ∧
    (∃ t, exec .tickWrap (firing 7 false) = .next t) ∧ (∃ t, exec .tickWrapSwap (firing 7 true) = .next t) :=
  ⟨⟨_, rfl⟩, ⟨_, rfl⟩, ⟨_, rfl⟩, ⟨_, rfl⟩⟩

/-- A grid that differs from the reset grid in one row of the back bank. -/
theorem witness_BackBankIsInvisible :
    (∀ z y, (State.reset.grid.setRow 1 2 5 0xC3#8).row (firing 7 true).frontSel z y =
      (firing 7 true).grid.row (firing 7 true).frontSel z y) ∧ ∃ t, exec .tickWrapSwap (firing 7 true) = .next t :=
  ⟨by decide, ⟨_, rfl⟩⟩

/-- No firing, and nine firings from cursor 5, the last of them at cursor 5 again. -/
theorem witness_FiringsCycleThroughTheLayers :
    (State.reset.tickPending = false ∧ State.reset.sched = fires 0 ++ []) ∧
    (let s := { State.reset with layerCursor := 5, sched := fires 9 ++ [Stimulus.consume] };
      s.tickPending = false ∧ s.sched = fires 9 ++ [Stimulus.consume] ∧ 0 < 9 ∧
        (5 : Fin 8).val = (s.layerCursor.val + (9 - 1)) % 8) := by decide

/-- A state at a cursor whose next turns are firings, with a delivered byte and a turn of the CONSUMER before each of them. -/
def amongBytes (z : Fin 8) (pending : Bool) (k : Nat) : State :=
  { State.reset with
    swapPending := pending, layerCursor := z
    sched := (List.replicate k [Stimulus.rx true 0x72#8, .consume, .expire, .tick]).flatten }

/-- A pass without a commit, and one that a swap was waiting for. -/
theorem witness_RefreshPassShowsOneFrame :
    let ok := fun s : State => StateInv s ∧ s.layerCursor = 0 ∧ .reset ∉ performed 32 s ∧
      (performed 32 s).countP isFiring = 8 ∧ (performed 32 s).getLast?.any isFiring = true
    (ok (amongBytes 0 false 8) ∧ .tickWrapSwap ∉ performed 32 (amongBytes 0 false 8)) ∧
      (ok (amongBytes 0 true 8) ∧ .tickWrapSwap ∈ performed 32 (amongBytes 0 true 8)) := by
  refine ⟨⟨⟨inv_of_check ?_, ?_⟩, ?_⟩, ⟨inv_of_check ?_, ?_⟩, ?_⟩ <;> decide +kernel

/-- V3 rows 9 and 10: the longest and the shortest wait, and two waits not yet over. -/
theorem witness_PendingSwapCommitsAtTheWrap :
    let ok := fun (n k : Nat) (s : State) => StateInv s ∧ s.swapPending = true ∧ .reset ∉ performed n s ∧
      (performed n s).countP isFiring = k
    (ok 32 8 (amongBytes 0 true 8) ∧ (performed 32 (amongBytes 0 true 8)).getLast?.any isFiring = true ∧ 0 + 8 = 8) ∧
      (ok 4 1 (amongBytes 7 true 1) ∧ (performed 4 (amongBytes 7 true 1)).getLast?.any isFiring = true ∧ 7 + 1 = 8) ∧
      (ok 31 7 (amongBytes 0 true 8) ∧ 0 + 7 < 8) ∧ (ok 3 0 (amongBytes 7 true 1) ∧ 7 + 0 < 8) := by
  refine ⟨⟨⟨inv_of_check ?_, ?_⟩, ?_⟩, ⟨⟨inv_of_check ?_, ?_⟩, ?_⟩, ⟨⟨inv_of_check ?_, ?_⟩, ?_⟩,
    ⟨inv_of_check ?_, ?_⟩, ?_⟩ <;> decide +kernel

theorem witness_OnlyTheWrapAndResetLiftTheHold :
    (∃ t, exec .tickWrapSwap (firing 7 true) = .next t ∧ (firing 7 true).swapPending = true ∧ t.swapPending = false) ∧
    (∃ t, exec .reset (firing 3 true) = .next t ∧ (firing 3 true).swapPending = true ∧ t.swapPending = false) :=
  ⟨⟨_, rfl, rfl, by decide⟩, ⟨_, rfl, rfl, rfl⟩⟩

theorem witness_NewBackBankIsZero :
    (∃ t, exec .tickWrapSwap (firing 7 true) = .next t ∧ t.frontSel ≠ (firing 7 true).frontSel) ∧
    (∃ t, exec .reset { State.reset with frontSel := 1 } = .next t ∧ t.frontSel ≠ 1) :=
  ⟨⟨_, rfl, by decide⟩, ⟨_, rfl, by decide⟩⟩

theorem witness_FrontBankChangesOnlyInCommitAndReset :
    ∃ t, exec (.data 0x3C#8) (receiving 62 0x3C#8) = .next t ∧ Instr.data 0x3C#8 ≠ .tickWrapSwap ∧
      Instr.data 0x3C#8 ≠ .reset := ⟨_, rfl, by decide, by decide⟩

theorem witness_ExpireRequestsAFiring : State.reset.tickPending = false := rfl

theorem witness_ResetRestoresTheResetState : 0 < State.reset.cfg.capacity := by decide

theorem witness_StepKeepsTheInvariants :
    StateInv { oneByte 0xF2#8 with sched := [.consume] } ∧
      ∃ t, step { oneByte 0xF2#8 with sched := [.consume] } = .next t := ⟨inv_of_check (by decide), ⟨_, rfl⟩⟩

/-- A frame in progress, and a requested swap over a back bank that is not zero. -/
theorem witness_StepNeverStops :
    StateInv (receiving 62 0x3C#8) ∧
      StateInv { firing 7 true with grid := State.reset.grid.setRow 1 7 7 0xFF#8 } :=
  ⟨inv_of_check (by decide), inv_of_check (by decide)⟩

/-- The ports after a firing of layer 0. -/
def afterFirstFiring : State :=
  { State.reset with layerCursor := 1, pz := 0x01#8, trace := firingTrace true (fun _ => 0x00#8) 0 false,
                     sched := [.expire] }

theorem witness_StepKeepsThePortsSettled : PortsSettled afterFirstFiring ∧ ∃ t, step afterFirstFiring = .next t :=
  ⟨⟨rfl, rfl, .inr ⟨0, rfl, rfl⟩⟩, ⟨_, rfl⟩⟩

theorem witness_StepPutsOutOnlyLegalPatterns : TraceLegal afterFirstFiring ∧ ∃ t, step afterFirstFiring = .next t :=
  ⟨by simp only [TraceLegal]; decide, ⟨_, rfl⟩⟩

theorem witness_StepKeepsTheDropCount :
    DropsCounted { fifo 1 0 1 [] with dropCnt := 1#16, trace := [.drop 0x9D#8], sched := [.rx true 0x9E#8] } ∧
      ∃ t, step { fifo 1 0 1 [] with dropCnt := 1#16, trace := [.drop 0x9D#8], sched := [.rx true 0x9E#8] } = .next t :=
  ⟨by simp only [DropsCounted]; decide, ⟨_, rfl⟩⟩

theorem witness_StepKeepsTheSequenceCounts :
    SequenceCounted afterFirstFiring ∧ ∃ t, step afterFirstFiring = .next t := ⟨⟨by decide, by decide⟩, ⟨_, rfl⟩⟩

theorem witness_StepTracesEveryPortWrite :
    PortsTraced afterFirstFiring ∧ ∃ t, step afterFirstFiring = .next t := ⟨⟨by decide, by decide, by decide⟩, ⟨_, rfl⟩⟩

/-- A frame in progress when the host falls silent, with a firing requested. -/
theorem witness_QuiescentStateStaysQuiescent :
    let s := { firing 6 false with ingState := .receiving, rcvCnt := 40, sched := [.tick, .consume] }
    Quiescent s ∧ s.sched = Stimulus.tick :: [.consume] ∧ (∀ b, Stimulus.tick ≠ .rx true b) ∧ Stimulus.tick ≠ .rst true :=
  ⟨⟨rfl, rfl⟩, rfl, (fun _ => Stimulus.noConfusion), by decide⟩

theorem witness_EqualReadsAreEqualStorage :
    let m : Memory := [(0, 0x41#8), (3, 0x42#8)]
    m.wf ∧ (∀ a, m.read a = m.read a) := ⟨by decide, fun _ => rfl⟩

/-- The reset state with the cursor at 7, its 32 cells too few for the frame that the next turns deliver and pop. -/
def streamed : State :=
  { State.reset with
    layerCursor := 7
    sched := (0xF2#8 :: (List.range 64).map (BitVec.ofNat 8)).flatMap (fun b => [Stimulus.rx true b, .consume])
      ++ [.expire, .tick] }

/-- The frame stored and not yet shown, and the frame shown. -/
theorem witness_PoppedFrameIsStoredAndShown :
    let d := (List.range 64).map (BitVec.ofNat 8)
    let ok := fun n : Nat => .reset ∉ performed n streamed ∧
      (performed n streamed).filterMap poppedByte = 0xF2#8 :: d
    (StateInv streamed ∧ streamed.ingState = .idle ∧ streamed.swapPending = false ∧ d.length = 64) ∧
      (ok 130 ∧ .tickWrapSwap ∉ performed 130 streamed) ∧ (ok 132 ∧ .tickWrapSwap ∈ performed 132 streamed) := by
  refine ⟨⟨inv_of_check ?_, ?_⟩, ⟨⟨?_, ?_⟩, ?_⟩, ⟨?_, ?_⟩, ?_⟩ <;> decide +kernel

end Sys2Proof.Tests
end

section
/-!
PROOFS. The exchange of the banks' roles (10_state R24): which operations exchange them, and what the new back bank holds.
-/

namespace Sys2Proof.Machine

open Sys2Proof

variable {s t : State} {i : Instr}

/-- The commit clears the bank that was front, and that bank is the new back bank. -/
theorem fire_backRow_of_commits (hc : commits s = true) (z y : Fin 8) : (fire s).backRow z y = 0x00#8 := by
  have hback : (fire s).backSel = s.frontSel := by simp [State.backSel, fire_frontSel, hc]
  rw [State.backRow, hback, fire_grid, if_pos hc, Grid.row_clear, if_pos rfl]

/-- RESET makes bank 1 the back bank and clears it. -/
theorem State.toReset_backRow (s : State) (z y : Fin 8) : s.toReset.backRow z y = 0x00#8 := by
  have hback : s.toReset.backSel = 1 := show otherBank 0 = 1 by decide
  rw [State.backRow, hback, State.toReset_grid, Grid.row_clear, if_pos rfl]

/-- Only a firing that commits and RESET change which bank is front. -/
theorem Effect.commits_or_reset_of_frontSel_ne (e : Effect s i t) (h : t.frontSel ≠ s.frontSel) :
    (commits s = true ∧ t = fire s) ∨ t = s.toReset := by
  cases e with
  | firing =>
    by_cases hc : commits s = true
    · exact .inl ⟨hc, rfl⟩
    · exact absurd (by rw [fire_frontSel, if_neg hc]) h
  | reset => exact .inr rfl
  | none | push | pushDrop | sof | ign | data | dataLast | expire => exact absurd rfl h

/-- Settles O44: of the operations only a committing firing and RESET exchange the roles, and each clears the bank that is
back after it. -/
theorem newBackBankIsZero : Obligations.NewBackBankIsZero := by
  intro i s t hexec hfront z y
  rcases (exec_effect hexec).commits_or_reset_of_frontSel_ne hfront with ⟨hc, rfl⟩ | rfl
  · exact fire_backRow_of_commits hc z y
  · exact s.toReset_backRow z y

end Sys2Proof.Machine
end

section
/-!
PROOFS. Every decode word is the encoding of its well-formed reading, so every word has a row of the opcode table
(30_encoding R98, R99).
-/

namespace Sys2Proof

/-! ### A word is packed from its own fields -/

theorem packP_fields (w : BitVec 10) : packP w[9] w[8] (w.extractLsb' 0 8) = w := by
  refine BitVec.eq_of_getLsbD_eq fun i hi => ?_
  obtain hlow | rfl | rfl : i < 8 ∨ i = 8 ∨ i = 9 := by omega
  · simp [packP, flagAt, hlow, hi, show i < 9 by omega]
  all_goals simp [packP, flagAt]

theorem packK_fields (w : BitVec 12) :
    packK w[11] w[10] (IngState.ofCode w[9]) w[8] (w.extractLsb' 0 8) = w := by
  refine BitVec.eq_of_getLsbD_eq fun i hi => ?_
  obtain hlow | rfl | rfl | rfl | rfl : i < 8 ∨ i = 8 ∨ i = 9 ∨ i = 10 ∨ i = 11 := by omega
  · simp [packK, flagAt, hlow, hi, show i < 9 by omega, show i < 10 by omega, show i < 11 by omega]
  all_goals simp [packK, flagAt]

/-! ### Encoding undoes decoding -/

theorem encode_decodeP (w : BitVec 10) : encode (decodeP w) = .p w := by
  have hpack := packP_fields w
  unfold decodeP
  cases h9 : w[9] <;> cases h8 : w[8] <;> simpa [encode, h9, h8] using hpack

theorem encode_decodeK (w : BitVec 12) : encode (decodeK w) = .k w := by
  have hpack := packK_fields w
  unfold decodeK
  cases h11 : w[11] with
  | true => simpa [encode, h11] using hpack
  | false =>
    cases h10 : w[10] with
    | false => simpa [encode, h11, h10] using hpack
    | true =>
      cases hing : IngState.ofCode w[9] with
      | idle =>
        by_cases hsof : w.extractLsb' 0 8 = Config.sof <;> simpa [encode, h11, h10, hing, hsof] using hpack
      | receiving => cases h8 : w[8] <;> simpa [encode, h11, h10, hing, h8] using hpack

/-- No bit of a word is lost in its reading. -/
theorem encode_decode (w : DecodeWord) : encode (decode w) = w := by
  cases w with
  | p w => exact encode_decodeP w
  | k w => exact encode_decodeK w
  | s w => revert w; decide
  | x w => revert w; decide
  | z w => revert w; decide

/-- IGN is read only where SOF does not match, so no word's reading is ill formed. -/
theorem decodeK_wellFormed (w : BitVec 12) : (decodeK w).WellFormed = true := by
  unfold decodeK
  dsimp only
  split
  · rfl
  · split
    · split
      · split
        · rfl
        · next hsof => simpa [Instr.WellFormed] using hsof
      · split <;> rfl
    · rfl

theorem decodeP_wellFormed (w : BitVec 10) : (decodeP w).WellFormed = true := by
  unfold decodeP
  dsimp only
  split
  · split <;> rfl
  · rfl

theorem decode_wellFormed (w : DecodeWord) : (decode w).WellFormed = true := by
  cases w with
  | p w => exact decodeP_wellFormed w
  | k w => exact decodeK_wellFormed w
  | s w => revert w; decide
  | x w => revert w; decide
  | z w => revert w; decide

/-! ### Every word has a row -/

/-- The table has a row for the word of every well-formed operation, with the operation's mnemonic. -/
theorem Laws.RowMatch.of_instr (i : Instr) : Laws.RowMatch.Statement i := by
  cases i with
  | pIdle full d => exact pIdle full d
  | push d => exact push d
  | pushDrop d => exact pushDrop d
  | kHold ne ing last head => exact kHold ne ing last head
  | kEmpty ing last head => exact kEmpty ing last head
  | sof last => exact sof last
  | ign last b => exact ign last b
  | data b => exact data b
  | dataLast b => exact dataLast b
  | sIdle wrap sp => exact sIdle wrap sp
  | tick sp => exact tick sp
  | tickWrap => exact tickWrap
  | tickWrapSwap => exact tickWrapSwap
  | expire => exact expire
  | xIdle => exact xIdle
  | zIdle => exact zIdle
  | reset => exact reset

/-- Every word of every format matches a row of the opcode table (30_encoding R99). -/
theorem tableMnemonic_isSome (w : DecodeWord) : (tableMnemonic w).isSome = true := by
  obtain ⟨r, hmem, -, hmatch⟩ := Laws.RowMatch.of_instr (decode w) (decode_wellFormed w)
  rw [encode_decode] at hmatch
  rw [tableMnemonic, Option.isSome_map]
  exact List.find?_isSome.mpr ⟨r, hmem, hmatch⟩

end Sys2Proof
end

section
/-!
PROOFS. What a popped byte means in each mode, and what its operation does (30_encoding R92, R93, R99).
-/

namespace Sys2Proof.Machine

open Sys2Proof

/-! ### The operation the head of the FIFO selects (30_encoding R93) -/

section selection
variable {s : State} {b : Byte} (hfree : s.swapPending = false) (hstored : s.count ≠ 0)
  (hhead : s.mem.read s.rdIdx = some b)
include hfree hstored hhead

theorem fetch_consume_sof (hidle : s.ingState = .idle) (hsof : b = Config.sof) :
    fetch .consume s = .sof s.last := by
  simp [fetch_consume, State.empty, State.head_eq hhead, hfree, hstored, hidle, hsof]

theorem fetch_consume_ign (hidle : s.ingState = .idle) (hsof : b ≠ Config.sof) :
    fetch .consume s = .ign s.last b := by
  simp [fetch_consume, State.empty, State.head_eq hhead, hfree, hstored, hidle, hsof]

theorem fetch_consume_data (hreceiving : s.ingState = .receiving) (hmore : s.last = false) :
    fetch .consume s = .data b := by
  simp [fetch_consume, State.empty, State.head_eq hhead, hfree, hstored, hreceiving, hmore]

theorem fetch_consume_dataLast (hreceiving : s.ingState = .receiving) (hlast : s.last = true) :
    fetch .consume s = .dataLast b := by
  simp [fetch_consume, State.empty, State.head_eq hhead, hfree, hstored, hreceiving, hlast]

end selection

theorem State.last_eq_true_iff {s : State} : s.last = true ↔ s.rcvCnt.val = 63 := by
  simp [State.last, Fin.ext_iff]

/-- Settles O5: the CONSUMER's selection, case by case. -/
theorem streamByteMeansWhatTheModeSays : Obligations.StreamByteMeansWhatTheModeSays := by
  intro s b hfree hstored hhead
  refine ⟨fun hidle hsof => ?_, fun hidle hsof => ?_, fun hreceiving hmore => ?_, fun hreceiving hlast => ?_⟩
  · exact ⟨s.last, fetch_consume_sof hfree hstored hhead hidle hsof⟩
  · exact ⟨s.last, fetch_consume_ign hfree hstored hhead hidle hsof⟩
  · have hl : s.last = false := Bool.eq_false_iff.mpr fun h => hmore.ne (State.last_eq_true_iff.mp h)
    exact fetch_consume_data hfree hstored hhead hreceiving hl
  · exact fetch_consume_dataLast hfree hstored hhead hreceiving (State.last_eq_true_iff.mpr hlast)

/-! ### The row a payload byte is stored in (30_encoding R92) -/

theorem payloadLayer_eq_bits (n : Fin 64) :
    (payloadLayer n).val = ((BitVec.ofNat 6 n.val).extractLsb 5 3).toNat := by
  show n.val / 8 = _
  rw [BitVec.extractLsb_toNat, BitVec.toNat_ofNat, Nat.shiftRight_eq_div_pow]
  omega

theorem payloadRow_eq_bits (n : Fin 64) :
    (payloadRow n).val = ((BitVec.ofNat 6 n.val).extractLsb 2 0).toNat := by
  show n.val % 8 = _
  rw [BitVec.extractLsb_toNat, BitVec.toNat_ofNat, Nat.shiftRight_zero]
  omega

@[simp] theorem State.setDecoder_backRow (s : State) (ing : IngState) (n : Fin 64) (z y : Fin 8) :
    (s.setDecoder ing n).backRow z y = s.backRow z y := rfl

@[simp] theorem State.swapRequest_backRow (s : State) (z y : Fin 8) : s.swapRequest.backRow z y = s.backRow z y := rfl

/-- A row of the back bank reads back as written. -/
@[simp] theorem State.writeRow_backRow_same (s : State) (z y : Fin 8) (v : Byte) :
    (s.writeRow z y v).backRow z y = v := by
  simp [State.backRow, Grid.row_setRow]

section payload
variable {s t : State} {b : Byte}

theorem exec_data_backRow (h : exec (.data b) s = .next t) :
    t.backRow (payloadLayer s.rcvCnt) (payloadRow s.rcvCnt) = b := by
  obtain ⟨-, -, -, -, -, -, rfl⟩ := exec_data_next h
  simp

/-- The last payload byte's row (7, 7) is the position of `rcv_cnt = 63`. -/
theorem exec_dataLast_backRow (h : exec (.dataLast b) s = .next t) :
    t.backRow (payloadLayer s.rcvCnt) (payloadRow s.rcvCnt) = b := by
  obtain ⟨-, -, -, -, -, hlast, rfl⟩ := exec_dataLast_next h
  have hz : payloadLayer s.rcvCnt = 7 := by rw [hlast]; rfl
  have hy : payloadRow s.rcvCnt = 7 := by rw [hlast]; rfl
  simp [hz, hy]

end payload

/-- Settles O10: the position's bits by arithmetic, the stored byte by each operation's row write. -/
theorem payloadPositionIsDivAndMod : Obligations.PayloadPositionIsDivAndMod :=
  ⟨fun n => ⟨rfl, rfl, payloadLayer_eq_bits n, payloadRow_eq_bits n⟩,
    fun _ _ _ h => h.elim exec_data_backRow exec_dataLast_backRow⟩

/-! ### The popped byte's operation completes (30_encoding R99) -/

section completion
variable {s : State} {b : Byte} (hfree : s.swapPending = false) (hstored : s.count ≠ 0)
  (hcell : s.rdIdx < s.cfg.capacity) (hhead : s.mem.read s.rdIdx = some b)
include hfree hstored hcell hhead

/-- A form of CONSUME completes on a byte it applies to. -/
theorem consumeForm_of_head {m : String} {form : Byte → Bool} {act : Byte → State → State} (hform : form b = true) :
    consumeForm m form act s = .next (act b s.advanceRead) :=
  consumeForm_next.mpr ⟨b, hfree, hstored, hcell, hhead, hform, rfl⟩

/-- In IDLE a byte other than the marker is popped and nothing else happens. -/
theorem exec_consume_of_idle_ne_sof (hidle : s.ingState = .idle) (hsof : b ≠ Config.sof) :
    exec (fetch .consume s) s = .next s.advanceRead := by
  rw [fetch_consume_ign hfree hstored hhead hidle hsof]
  exact consumeForm_of_head hfree hstored hcell hhead (by simp [hidle, hsof])

/-- In IDLE the marker is popped and starts a frame. -/
theorem exec_consume_of_idle_sof (hidle : s.ingState = .idle) (hsof : b = Config.sof) :
    exec (fetch .consume s) s = .next (s.advanceRead.setDecoder .receiving 0) := by
  rw [fetch_consume_sof hfree hstored hhead hidle hsof]
  exact consumeForm_of_head hfree hstored hcell hhead (by simp [hidle, hsof])

/-- In RECEIVING every byte is stored at the position of `rcv_cnt`. -/
theorem exec_consume_of_receiving (hreceiving : s.ingState = .receiving) :
    ∃ t, exec (fetch .consume s) s = .next t ∧ t.backRow (payloadLayer s.rcvCnt) (payloadRow s.rcvCnt) = b := by
  cases hl : s.last with
  | false =>
    rw [fetch_consume_data hfree hstored hhead hreceiving hl]
    have hrun : exec (.data b) s = .next _ :=
      consumeForm_of_head hfree hstored hcell hhead (by simp [hreceiving, hl])
    exact ⟨_, hrun, exec_data_backRow hrun⟩
  | true =>
    rw [fetch_consume_dataLast hfree hstored hhead hreceiving hl]
    have hrun : exec (.dataLast b) s = .next _ :=
      consumeForm_of_head hfree hstored hcell hhead (by simp [hreceiving, hl])
    exact ⟨_, hrun, exec_dataLast_backRow hrun⟩

end completion

/-- Settles O6: each mode's operation completes on every byte, and every word has a row. -/
theorem noByteIsIllegal : Obligations.NoByteIsIllegal := by
  refine ⟨fun s b hfree hstored hcell hhead => ⟨fun hidle hsof => ?_, fun hidle hsof => ?_, fun hreceiving => ?_⟩,
    tableMnemonic_isSome⟩
  · exact exec_consume_of_idle_ne_sof hfree hstored hcell hhead hidle hsof
  · exact ⟨_, exec_consume_of_idle_sof hfree hstored hcell hhead hidle hsof, rfl⟩
  · exact exec_consume_of_receiving hfree hstored hcell hhead hreceiving

end Sys2Proof.Machine
end

section
/-!
PROOFS. What a row of a firing puts on PX (30_encoding R94).
-/

namespace Sys2Proof.Machine

open Sys2Proof

/-- Settles O34: the row's events open with PX at the row register, and PX ends blank. -/
theorem columnsCarryTheRowUnchanged : Obligations.ColumnsCarryTheRowUnchanged := by
  intro s f z y
  rw [scanRow_eq]
  exact ⟨s.grid.row f z y, _, rfl, rfl, fun _ => rfl, rfl⟩

end Sys2Proof.Machine
end

section
/-!
PROOFS. SOF, IGN and DATA: the word of each, and the state it leaves (42_ingest R162 to R164).
-/

namespace Sys2Proof.Machine

open Sys2Proof

/-! ### The words (30_encoding R90, R98) -/

/-- The five fields of format K in order, most significant first, are its packed word. -/
theorem append_eq_packK (sp ne : Bool) (ing : IngState) (last : Bool) (head : Byte) :
    BitVec.ofBool sp ++ BitVec.ofBool ne ++ BitVec.ofBool ing.code ++ BitVec.ofBool last ++ head =
      packK sp ne ing last head := by
  refine BitVec.eq_of_getLsbD_eq fun i hi => ?_
  simp only [BitVec.getLsbD_append]
  obtain hlow | rfl | rfl | rfl | rfl : i < 8 ∨ i = 8 ∨ i = 9 ∨ i = 10 ∨ i = 11 := by omega
  · simp [packK, flagAt, hlow, show i < 9 by omega, show i < 10 by omega, show i < 11 by omega, show i < 12 by omega]
  all_goals simp [packK, flagAt]

/-! In each pattern of the opcode table the fields that the operation fixes stand as one literal, which is their
concatenation by evaluation. -/

theorem encode_sof (last : Bool) : encode (.sof last) = .k (0b010#3 ++ BitVec.ofBool last ++ 0b11110010#8) :=
  congrArg DecodeWord.k (append_eq_packK false true .idle last Config.sof).symm

theorem encode_ign (last : Bool) (b : Byte) : encode (.ign last b) = .k (0b010#3 ++ BitVec.ofBool last ++ b) :=
  congrArg DecodeWord.k (append_eq_packK false true .idle last b).symm

theorem encode_data (b : Byte) : encode (.data b) = .k (0b0110#4 ++ b) :=
  congrArg DecodeWord.k (append_eq_packK false true .receiving false b).symm

/-! ### Completion -/

/-- Settles O23: the marker is popped, and the decoder's registers are the only others written. -/
theorem sofStartsAFrame : Obligations.SofStartsAFrame := by
  refine ⟨encode_sof, fun s last hfree hstored hcell hhead hidle => ?_⟩
  exact consumeForm_of_head hfree hstored hcell hhead (by simp [hidle, Config.sof])

/-- Settles O24: nothing follows the POP. -/
theorem ignDiscardsTheByte : Obligations.IgnDiscardsTheByte := by
  refine ⟨encode_ign, fun s last b hfree hstored hcell hhead hidle hsof => ?_⟩
  exact consumeForm_of_head hfree hstored hcell hhead (by simp [hidle, Config.sof, hsof])

theorem nextReceived_val {n : Fin 64} (h : n.val < 63) : (nextReceived n).val = n.val + 1 :=
  Nat.mod_eq_of_lt (by omega)

/-- Reading any row of either bank after a row write: only the named row of the back bank is new. -/
theorem State.writeRow_grid_row (s : State) (z y : Fin 8) (v : Byte) (b' : Fin 2) (z' y' : Fin 8) :
    (s.writeRow z y v).grid.row b' z' y' =
      if b' = s.frontSel ^^^ 1 ∧ z' = z ∧ y' = y then v else s.grid.row b' z' y' := by
  have hback : s.backSel = s.frontSel ^^^ 1 := rfl
  rw [State.writeRow_grid, Grid.row_setRow, hback]
  simp only [eq_comm]

/-- The state DATA leaves: the byte popped, stored at the position of `rcv_cnt`, and counted. -/
theorem exec_data_of_head {s : State} {b : Byte} (hfree : s.swapPending = false) (hstored : s.count ≠ 0)
    (hcell : s.rdIdx < s.cfg.capacity) (hhead : s.mem.read s.rdIdx = some b) (hreceiving : s.ingState = .receiving)
    (hmore : s.rcvCnt.val < 63) :
    exec (.data b) s = .next ((s.advanceRead.writeRow (payloadLayer s.rcvCnt) (payloadRow s.rcvCnt) b).setDecoder
      s.ingState (nextReceived s.rcvCnt)) := by
  have hl : s.last = false := Bool.eq_false_iff.mpr fun h => hmore.ne (State.last_eq_true_iff.mp h)
  exact consumeForm_of_head hfree hstored hcell hhead (by simp [hreceiving, hl])

/-- Settles O25: the state after DATA is known outright; its count and its rows are read off. -/
theorem dataWritesItsRow : Obligations.DataWritesItsRow := by
  refine ⟨encode_data, fun s b z y hfree hstored hcell hhead hreceiving hmore hz hy => ?_⟩
  obtain rfl : z = payloadLayer s.rcvCnt := Fin.ext hz
  obtain rfl : y = payloadRow s.rcvCnt := Fin.ext hy
  refine ⟨_, exec_data_of_head hfree hstored hcell hhead hreceiving hmore, rfl, nextReceived_val hmore, ?_⟩
  exact s.advanceRead.writeRow_grid_row (payloadLayer s.rcvCnt) (payloadRow s.rcvCnt) b

end Sys2Proof.Machine
end

section
/-!
PROOFS. POP takes the byte at the read index, and the flags follow the count (43_fifo R183, R184).
-/

namespace Sys2Proof.Machine

open Sys2Proof

variable {s : State}

/-! ### The flags, read as facts about the count (10_state R35) -/

theorem State.empty_eq_true_iff : s.empty = true ↔ s.count = 0 := beq_iff_eq

theorem State.full_eq_false_iff : s.full = false ↔ s.count ≠ s.cfg.capacity := beq_eq_false_iff_ne

theorem State.cmdPending_eq_false_iff : s.cmdPending = false ↔ s.count = 0 := bne_eq_false_iff_eq

/-! ### The flags after a byte is taken -/

/-- A FIFO that has lost a byte has room: the count stood at C at most, and is one less. -/
theorem State.advanceRead_full (hstored : s.count ≠ 0) (hbound : s.count ≤ s.cfg.capacity) :
    s.advanceRead.full = false := by
  rw [State.full_eq_false_iff, State.advanceRead_count, State.advanceRead_cfg]
  omega

/-- From a FIFO that holds a byte, what is left counts zero exactly when there was one. -/
theorem State.advanceRead_count_eq_zero_iff (hstored : s.count ≠ 0) : s.advanceRead.count = 0 ↔ s.count = 1 := by
  rw [State.advanceRead_count]
  omega

/-- Settles O27: POP's result is the law of `fifoPop`, and the flags after it are read off the count. -/
theorem popTakesTheHead : Obligations.PopTakesTheHead := by
  refine ⟨fun _ => State.fifoPop_none, fun s b hstored hcell hhead => ?_⟩
  have hcount := State.advanceRead_count_eq_zero_iff hstored
  refine ⟨s.advanceRead, State.fifoPop_some.mpr ⟨hstored, hcell, hhead, rfl⟩, rfl, ?_, ?_, ?_⟩
  · exact State.advanceRead_full hstored
  · exact State.empty_eq_true_iff.trans hcount
  · exact State.cmdPending_eq_false_iff.trans hcount

end Sys2Proof.Machine
end

section
/-!
PROOFS. The reading of a word: decode undoes encode, and the opcode table read in order gives the decoder's mnemonic
(30_encoding R98).
-/

namespace Sys2Proof

/-! ### Decoding undoes encoding -/

/-- Every operand of a well-formed operation is read back from its field of the word. -/
theorem decode_encode {i : Instr} (h : i.WellFormed = true) : decode (encode i) = i := by
  cases i with
  | pIdle | push | pushDrop => simp [encode, decode, decodeP]
  | kHold | kEmpty | sof | data | dataLast => simp [encode, decode, decodeK]
  | ign last b =>
    have hb : b ≠ Config.sof := bne_iff_ne.mp h
    simp [encode, decode, decodeK, hb]
  | sIdle | tick | tickWrap | tickWrapSwap => simp [encode, decode, decodeS]
  | expire | xIdle | zIdle | reset => rfl

/-- Settles O1. -/
theorem decodeOfEncodeGivesTheOperation : Obligations.DecodeOfEncodeGivesTheOperation := fun _ => decode_encode

/-- Settles O2: the reading is well formed, and encoding undoes it. -/
theorem everyWordIsTheEncodingOfItsReading : Obligations.EveryWordIsTheEncodingOfItsReading :=
  fun w => ⟨decode_wellFormed w, encode_decode w⟩

/-! ### The earliest matching row -/

/-- Can one word match both rows? Then each pattern has the bits that the other row's mask fixes. -/
def OpcodeRow.overlaps (r r' : OpcodeRow) : Bool := r.format == r'.format && r.pattern &&& r'.mask == r'.pattern &&& r.mask

theorem OpcodeRow.overlaps_of_matchesWord {r r' : OpcodeRow} {f : Format} {n : Nat} (h : r.matchesWord f n = true)
    (h' : r'.matchesWord f n = true) : r.overlaps r' = true := by
  simp only [OpcodeRow.matchesWord, Bool.and_eq_true, beq_iff_eq] at h h'
  obtain ⟨hf, hp⟩ := h
  obtain ⟨hf', hp'⟩ := h'
  simp only [OpcodeRow.overlaps, Bool.and_eq_true, beq_iff_eq]
  exact ⟨hf.trans hf'.symm, by rw [← hp, ← hp', Nat.and_right_comm]⟩

/-- SOF and IGN are the only two rows whose patterns overlap, and SOF stands first. -/
theorem opcodeTable_overlaps :
    opcodeTable.Pairwise fun r r' => r.overlaps r' = true → r.mnemonic = "SOF" ∧ r'.mnemonic = "IGN" := by decide

theorem opcodeTable_mnemonic_inj : ∀ r ∈ opcodeTable, ∀ r' ∈ opcodeTable, r.mnemonic = r'.mnemonic → r = r' := by decide

/-- A matching row that no earlier row matches beside is the one found. -/
theorem find?_eq_some_of_pairwise {α : Type} {R : α → α → Prop} {p : α → Bool} {l : List α} {a : α}
    (hl : l.Pairwise R) (ha : a ∈ l) (hp : p a = true) (hearlier : ∀ b ∈ l, R b a → p b = false) :
    l.find? p = some a := by
  induction l with
  | nil => cases ha
  | cons c l ih =>
    obtain ⟨hc, hl⟩ := List.pairwise_cons.mp hl
    rcases List.mem_cons.mp ha with rfl | ha
    · exact List.find?_cons_of_pos hp
    · have hpc : p c = false := hearlier c List.mem_cons_self (hc a ha)
      rw [List.find?_cons_of_neg (by simp [hpc])]
      exact ih hl ha fun b hb => hearlier b (List.mem_cons_of_mem _ hb)

/-- SOF's mask keeps the field `head`. -/
theorem extractLsb'_head_and_sofMask (w : BitVec 12) : (w &&& 0xEFF#12).extractLsb' 0 8 = w.extractLsb' 0 8 := by
  refine BitVec.eq_of_getLsbD_eq fun i hi => ?_
  interval_cases i <;> simp

/-- The row of SOF fixes every bit of `head`, so the word of IGN with another byte does not match it. -/
theorem ign_not_matchesWord_sof {last : Bool} {b : Byte} (hb : b ≠ Config.sof) {r : OpcodeRow} (hr : r ∈ opcodeTable)
    (hm : r.mnemonic = "SOF") : r.matchesWord (encode (.ign last b)).format (encode (.ign last b)).toNat = false := by
  obtain rfl : r = ⟨"SOF", .k, 0x4F2, 0xEFF⟩ := opcodeTable_mnemonic_inj r hr _ (by decide) hm
  refine Bool.eq_false_iff.mpr fun h => hb ?_
  have hbits : (packK false true .idle last b).toNat &&& 0xEFF = 0x4F2 := by
    simpa [OpcodeRow.matchesWord, encode, DecodeWord.format, DecodeWord.toNat] using h
  have hw : packK false true .idle last b &&& 0xEFF#12 = 0x4F2#12 := BitVec.eq_of_toNat_eq hbits
  calc b = (packK false true .idle last b).extractLsb' 0 8 := (packK_head ..).symm
    _ = (packK false true .idle last b &&& 0xEFF#12).extractLsb' 0 8 := (extractLsb'_head_and_sofMask _).symm
    _ = Config.sof := by rw [hw]; rfl

/-- The row with a well-formed operation's mnemonic is the earliest that its word matches. -/
theorem tableMnemonic_encode {i : Instr} (hi : i.WellFormed = true) : tableMnemonic (encode i) = some i.mnemonic := by
  obtain ⟨r, hr, hname, hmatch⟩ := Laws.RowMatch.of_instr i hi
  have hfind : opcodeTable.find? (fun r => r.matchesWord (encode i).format (encode i).toNat) = some r := by
    refine find?_eq_some_of_pairwise opcodeTable_overlaps hr hmatch fun r' hr' hover => ?_
    refine Bool.eq_false_iff.mpr fun h => ?_
    obtain ⟨hsof, hign⟩ := hover (OpcodeRow.overlaps_of_matchesWord h hmatch)
    cases i with
    | ign last b => exact absurd h (by simp [ign_not_matchesWord_sof (bne_iff_ne.mp hi) hr' hsof])
    | _ => exact absurd (hname.symm.trans hign) (by simp [Instr.mnemonic])
  rw [tableMnemonic, hfind, Option.map_some, hname]

/-- Settles O3: a word is the encoding of its well-formed reading. -/
theorem decoderTakesTheEarliestMatchingRow : Obligations.DecoderTakesTheEarliestMatchingRow := by
  intro w
  rw [← tableMnemonic_encode (decode_wellFormed w), encode_decode]

/-- Settles O4. -/
theorem workedExampleWordsDecode : Obligations.WorkedExampleWordsDecode := by
  unfold Obligations.WorkedExampleWordsDecode
  decide

/-! ### Port patterns (30_encoding R95, R96) -/

/-- Settles O11. -/
theorem rowSelectIsOneCold : Obligations.RowSelectIsOneCold := by
  unfold Obligations.RowSelectIsOneCold
  decide

/-- Settles O12. -/
theorem layerSelectIsOneHot : Obligations.LayerSelectIsOneHot := by
  unfold Obligations.LayerSelectIsOneHot
  decide

end Sys2Proof
end

section
/-!
PROOFS. What an operation answers: the next state where its agent's turn selects it, a refusal where its condition fails, a
fault where the FIFO's storage cannot be accessed (30_encoding R100, 20_memory R61).
-/

namespace Sys2Proof.Machine

open Sys2Proof Sys2Proof.Safety

variable {s : State} {b d : Byte}

/-! ### PRODUCER -/

/-- The state in which a byte is stored (43_fifo R181). -/
def State.pushed (s : State) (b : Byte) : State := State.advanceWrite { s with mem := s.mem.write s.wrIdx b }

theorem State.fifoPush_error (hcell : s.cfg.capacity ≤ s.wrIdx) : s.fifoPush b = .error (.noSuchCell s.wrIdx) := by
  simp [State.fifoPush, State.memWrite, Nat.not_lt.mpr hcell]

theorem exec_push_of_room (hroom : s.count < s.cfg.capacity) (hcell : s.wrIdx < s.cfg.capacity) :
    exec (.push b) s = .next (s.pushed b) := by
  refine whenSelected_next.mpr ⟨decide_eq_true hroom, ?_⟩
  rw [State.fifoPush_ok.mpr ⟨hcell, rfl⟩]
  rfl

theorem exec_push_fault (hroom : s.count < s.cfg.capacity) (hcell : s.cfg.capacity ≤ s.wrIdx) :
    exec (.push b) s = .fault (.noSuchCell s.wrIdx) := by
  refine whenSelected_fault.mpr ⟨decide_eq_true hroom, ?_⟩
  rw [State.fifoPush_error hcell]

theorem State.full_eq_true_iff : s.full = true ↔ s.count = s.cfg.capacity := beq_iff_eq

theorem exec_pushDrop_of_full (hfull : s.full = true) :
    exec (.pushDrop b) s = .next (s.countDrop.emit (.drop b)) := whenSelected_next.mpr ⟨hfull, rfl⟩

/-! ### CONSUMER -/

/-- The state in which a popped byte is decoded (42_ingest R162 to R165). -/
def State.consumed (s : State) (b : Byte) : State :=
  match s.ingState with
  | .idle => if b = Config.sof then s.advanceRead.setDecoder .receiving 0 else s.advanceRead
  | .receiving =>
    if s.last then ((s.advanceRead.writeRow 7 7 b).swapRequest).setDecoder .idle 0
    else (s.advanceRead.writeRow (payloadLayer s.rcvCnt) (payloadRow s.rcvCnt) b).setDecoder .receiving
      (nextReceived s.rcvCnt)

/-- The operations that pop are the four forms of CONSUME. -/
theorem exec_eq_consumeForm {i : Instr} (hpop : (poppedByte i).isSome = true) :
    ∃ form act, exec i s = consumeForm i.mnemonic form act s := by
  cases i with
  | sof | ign | data | dataLast => exact ⟨_, _, rfl⟩
  | _ => cases hpop

theorem whenSelected_of_not {m : String} {c : Bool} {r : Host.Outcome State Fault Refusal} (h : c = false) :
    whenSelected m c r = .refused (.notSelected m) := whenSelected_refused.mpr (.inl ⟨h, rfl⟩)

/-- Held or with an empty FIFO, the CONSUMER pops nothing. -/
theorem exec_pop_refused {i : Instr} (hpop : (poppedByte i).isSome = true) (h : s.swapPending = true ∨ s.count = 0) :
    exec i s = .refused (.notSelected i.mnemonic) := by
  obtain ⟨form, act, e⟩ := exec_eq_consumeForm (s := s) hpop
  rw [e]
  refine whenSelected_of_not ?_
  rcases h with h | h <;> simp [State.empty, h]

section stored
variable (hfree : s.swapPending = false) (hstored : s.count ≠ 0)
include hfree hstored

theorem consume_selected : (!s.swapPending && !s.empty) = true := by simp [State.empty, hfree, hstored]

theorem exec_pop_fault {i : Instr} {f : Fault} (hpop : (poppedByte i).isSome = true)
    (hread : s.memRead s.rdIdx = .error f) : exec i s = .fault f := by
  obtain ⟨form, act, e⟩ := exec_eq_consumeForm (s := s) hpop
  have hfifo : s.fifoPop = .error f := by simp [State.fifoPop, hstored, hread]
  rw [e, consumeForm, whenSelected, if_pos (consume_selected hfree hstored), hfifo]

/-- The CONSUMER's turn selects a form of CONSUME. -/
theorem fetch_consume_pops : (poppedByte (fetch .consume s)).isSome = true := by
  have hempty : s.empty = false := beq_eq_false_iff_ne.mpr hstored
  simp only [fetch_consume, hfree, hempty, Bool.false_eq_true, if_false]
  split <;> split <;> rfl

/-- A form of CONSUME that does not apply to the popped byte is refused. -/
theorem consumeForm_refused {m : String} {form : Byte → Bool} {act : Byte → State → State}
    (hcell : s.rdIdx < s.cfg.capacity) (hhead : s.mem.read s.rdIdx = some b) (hform : form b = false) :
    consumeForm m form act s = .refused (.notSelected m) := by
  rw [consumeForm, whenSelected, if_pos (consume_selected hfree hstored),
    State.fifoPop_some.mpr ⟨hstored, hcell, hhead, rfl⟩]
  exact whenSelected_of_not hform

/-- The CONSUMER's turn on a stored byte decodes it. -/
theorem exec_fetch_consume (hcell : s.rdIdx < s.cfg.capacity) (hhead : s.mem.read s.rdIdx = some b) :
    exec (fetch .consume s) s = .next (s.consumed b) := by
  cases hing : s.ingState with
  | idle =>
    by_cases hsof : b = Config.sof
    · simp [exec_consume_of_idle_sof hfree hstored hcell hhead hing hsof, State.consumed, hing, hsof]
    · simp [exec_consume_of_idle_ne_sof hfree hstored hcell hhead hing hsof, State.consumed, hing, hsof]
  | receiving =>
    cases hl : s.last with
    | false =>
      rw [fetch_consume_data hfree hstored hhead hing hl]
      exact (consumeForm_of_head hfree hstored hcell hhead (by simp [hing, hl])).trans
        (by simp [State.consumed, hing, hl])
    | true =>
      rw [fetch_consume_dataLast hfree hstored hhead hing hl]
      exact (consumeForm_of_head hfree hstored hcell hhead (by simp [hing, hl])).trans
        (by simp [State.consumed, hing, hl])

end stored

theorem exec_fetch_consume_held (hheld : s.swapPending = true) : exec (fetch .consume s) s = .next s := by
  rw [fetch_consume, if_pos hheld]
  exact whenSelected_next.mpr ⟨hheld, rfl⟩

theorem exec_fetch_consume_empty (hfree : s.swapPending = false) (hempty : s.count = 0) :
    exec (fetch .consume s) s = .next s := by
  have he : s.empty = true := State.empty_eq_true_iff.mpr hempty
  rw [fetch_consume, if_neg (by simp [hfree]), if_pos he]
  exact whenSelected_next.mpr ⟨by simp [hfree, he], rfl⟩

/-! ### The other agents' turns -/

theorem exec_fetch_rx_false : exec (fetch (.rx false b) s) s = .next s := by
  rw [fetch_rx]
  rfl

theorem exec_fetch_rx_full (hfull : s.count = s.cfg.capacity) :
    exec (fetch (.rx true b) s) s = .next (s.countDrop.emit (.drop b)) := by
  have hf : s.full = true := State.full_eq_true_iff.mpr hfull
  rw [fetch_rx, if_pos rfl, if_pos hf]
  exact exec_pushDrop_of_full hf

theorem fetch_rx_room (hroom : s.count < s.cfg.capacity) : fetch (.rx true b) s = .push b := by
  rw [fetch_rx, if_pos rfl, State.full_eq_false_iff.mpr hroom.ne, if_neg Bool.false_ne_true]

theorem exec_fetch_rx_room (hroom : s.count < s.cfg.capacity) (hcell : s.wrIdx < s.cfg.capacity) :
    exec (fetch (.rx true b) s) s = .next (s.pushed b) := by
  rw [fetch_rx_room hroom]
  exact exec_push_of_room hroom hcell

theorem exec_fetch_tick : exec (fetch .tick s) s = .next (if s.tickPending then fire s else s) := by
  cases ht : s.tickPending with
  | false =>
    rw [fetch_tick, if_neg (by simp [ht])]
    exact whenSelected_next.mpr ⟨by simp [ht], rfl⟩
  | true =>
    rw [fetch_tick, if_pos ht]
    cases hw : s.wrap with
    | false => exact whenSelected_next.mpr ⟨by simp [ht, hw], rfl⟩
    | true => cases hs : s.swapPending <;> exact whenSelected_next.mpr ⟨by simp [ht, hw, hs], rfl⟩

theorem exec_fetch_expire : exec (fetch .expire s) s = .next (s.setTickPending true) := by
  rw [fetch_expire]
  cases ht : s.tickPending with
  | false => exact whenSelected_next.mpr ⟨by simp [ht], rfl⟩
  | true => exact whenSelected_next.mpr ⟨ht, by rw [State.setTickPending, ← ht]⟩

theorem exec_fetch_rst (r : Bool) : exec (fetch (.rst r) s) s = .next (if r then s.toReset else s) := by
  rw [fetch_rst]
  cases r <;> rfl

/-! ### Selection and refusal -/

/-- What a turn selects is not refused: it completes, or the FIFO's storage cannot be accessed. -/
theorem exec_fetch_ne_refused (turn : Stimulus) (hcount : s.count ≤ s.cfg.capacity) (r : Refusal) :
    exec (fetch turn s) s ≠ .refused r := by
  cases turn with
  | rx v b =>
    cases v with
    | false => simp [exec_fetch_rx_false]
    | true =>
      rcases hcount.eq_or_lt with hfull | hroom
      · simp [exec_fetch_rx_full hfull]
      · rw [fetch_rx_room hroom]
        rcases lt_or_ge s.wrIdx s.cfg.capacity with hcell | hcell
        · simp [exec_push_of_room hroom hcell]
        · simp [exec_push_fault hroom hcell]
  | consume =>
    cases hsp : s.swapPending with
    | true => simp [exec_fetch_consume_held hsp]
    | false =>
      rcases eq_or_ne s.count 0 with hempty | hstored
      · simp [exec_fetch_consume_empty hsp hempty]
      · cases hread : s.memRead s.rdIdx with
        | ok b =>
          obtain ⟨hcell, hhead⟩ := State.memRead_ok.mp hread
          simp [exec_fetch_consume hsp hstored hcell hhead]
        | error f => simp [exec_pop_fault hsp hstored (fetch_consume_pops hsp hstored) hread]
  | tick => simp [exec_fetch_tick]
  | expire => simp [exec_fetch_expire]
  | rst => simp [exec_fetch_rst]

/-- Settles O7: the operation is the one its own turn selects. -/
theorem selectedOperationIsNeverRefused : Obligations.SelectedOperationIsNeverRefused := by
  intro i s hcount hselected r
  rw [← hselected]
  exact exec_fetch_ne_refused (turnOf i) hcount r

/-- Settles O8: each operation's own test fails; a form of CONSUME is tested again on the popped byte. -/
theorem unselectedOperationIsRefused : Obligations.UnselectedOperationIsRefused := by
  refine ⟨fun s b h => ?_, fun s b h => ?_, fun s ne ing last d h => ?_, fun s ing last d h => ?_, fun s last b h => ?_,
    fun s last b d hfree hstored hcell hhead => ?_, fun s wrap sp h => ?_, fun s sp h => ?_, fun s h => ?_, fun s h => ?_,
    fun s h => ?_, fun s h => ?_⟩
  · exact whenSelected_of_not (by simpa using h)
  · exact whenSelected_of_not (State.full_eq_false_iff.mpr h)
  · exact whenSelected_of_not h
  · exact whenSelected_of_not (by simpa [State.empty, imp_iff_not_or] using h)
  · exact ⟨exec_pop_refused rfl h, exec_pop_refused rfl h, exec_pop_refused rfl h, exec_pop_refused rfl h⟩
  · have refused {m form act} := consumeForm_refused (m := m) (form := form) (act := act) hfree hstored hcell hhead
    have hlast : s.last = false ↔ s.rcvCnt.val < 63 := by simp [State.last, Fin.ext_iff]; omega
    refine ⟨fun h => refused ?_, fun h => refused ?_, fun h => refused ?_, fun h => refused ?_⟩ <;>
      refine Bool.eq_false_iff.mpr fun hform => h ?_
    · simpa [Config.sof] using hform
    · simp only [Bool.and_eq_true, beq_iff_eq, bne_iff_ne] at hform
      obtain ⟨⟨hidle, rfl⟩, hsof⟩ := hform
      exact ⟨hidle, rfl, hsof⟩
    · simpa [hlast, and_assoc] using hform
    · simpa [State.last_eq_true_iff, and_assoc] using hform
  · exact whenSelected_of_not (by simp [h])
  · exact whenSelected_of_not (by rcases h with h | h <;> simp [State.wrap, h])
  · exact whenSelected_of_not (by rcases h with h | h | h <;> simp [State.wrap, h])
  · exact whenSelected_of_not (by rcases h with h | h | h <;> simp [State.wrap, h])
  · exact whenSelected_of_not (by simp [h])
  · exact whenSelected_of_not h

/-- Settles O9: PUSH's store and POP's read raise the faults. -/
theorem storageAccessFaults : Obligations.StorageAccessFaults := by
  refine ⟨fun s b hroom hcell => exec_push_fault hroom hcell, fun s last b i hi hfree hstored => ?_⟩
  have hpop : (poppedByte i).isSome = true := by rcases hi with rfl | rfl | rfl | rfl <;> rfl
  refine ⟨fun hcell => ?_, fun hcell hhead => ?_⟩
  · exact exec_pop_fault hfree hstored hpop (by simp [State.memRead, Nat.not_lt.mpr hcell])
  · exact exec_pop_fault hfree hstored hpop (by simp [State.memRead, hcell, hhead])

/-- Settles O16. -/
theorem noStepRowsChangeNothing : Obligations.NoStepRowsChangeNothing := by
  refine ⟨fun _ _ _ => rfl, fun s ne ing last d h => ?_, fun s ing last d hfree hempty => ?_, fun s wrap sp h => ?_,
    fun s h => ?_, fun _ => rfl⟩
  · exact whenSelected_next.mpr ⟨h, rfl⟩
  · exact whenSelected_next.mpr ⟨by simp [State.empty, hfree, hempty], rfl⟩
  · exact whenSelected_next.mpr ⟨by simp [h], rfl⟩
  · exact whenSelected_next.mpr ⟨h, rfl⟩

/-- Settles O46: the TIMER's selection reads `tick_pending`. -/
theorem expireRequestsAFiring : Obligations.ExpireRequestsAFiring := by
  intro s hidle
  have hfetch : fetch .expire s = .expire := by rw [fetch_expire, if_neg (by simp [hidle])]
  refine ⟨hfetch, ?_, by rw [fetch_expire, if_pos rfl]⟩
  have hexec := exec_fetch_expire (s := s)
  rwa [hfetch] at hexec

end Sys2Proof.Machine
end

section
/-!
PROOFS. A step is the operation its turn selects; a placed operation is selected by its own turn (30_encoding R90, R100).
-/

namespace Sys2Proof.Machine

open Sys2Proof Sys2Proof.Safety

variable {s t : State}

/-! ### The step -/

/-- Settles O14. -/
theorem stepRunsTheFetchedOperation : Obligations.StepRunsTheFetchedOperation :=
  ⟨fun _ _ _ => step_cons, fun _ => step_nil⟩

/-- A step has the effect of an operation, on a state that differs in the schedule and the counter of free choices alone. -/
theorem step_effect_turn (h : step s = .next t) :
    ∃ i l n, Effect { s with sched := l, freeCount := n } i t := by
  obtain ⟨turn, l, n, e⟩ := step_turn s
  exact ⟨_, l, n, exec_effect (e ▸ h)⟩

/-- What every effect keeps and what does not speak of the model's schedule is kept by every step. -/
theorem step_invariant {I : State → Prop} (hturn : ∀ s l n, I s → I { s with sched := l, freeCount := n })
    (heffect : ∀ s t i, I s → Effect s i t → I t) (s t : State) (hs : I s) (h : step s = .next t) : I t := by
  obtain ⟨i, l, n, e⟩ := step_effect_turn h
  exact heffect _ t i (hturn s l n hs) e

theorem Effect.cfg_eq {i : Instr} (e : Effect s i t) : t.cfg = s.cfg := by
  cases e with
  | firing => exact fire_cfg s
  | none | push | pushDrop | sof | ign | data | dataLast | expire | reset => rfl

/-- Settles O17. -/
theorem stepKeepsTheParameters : Obligations.StepKeepsTheParameters := by
  intro s t h
  obtain ⟨i, l, n, e⟩ := step_effect_turn h
  exact e.cfg_eq

/-! ### Completion -/

/-- What a turn's operation needs of the FIFO: a cell to store a byte in, or a byte to pop. -/
def ReadyFor (turn : Stimulus) (s : State) : Prop :=
  match turn with
  | .rx _ _ => s.count ≤ s.cfg.capacity ∧ s.wrIdx < s.cfg.capacity
  | .consume => s.rdIdx < s.cfg.capacity ∧ (s.count ≠ 0 → ∃ b, s.mem.read s.rdIdx = some b)
  | .tick | .expire | .rst _ => True

theorem exec_fetch_completes {turn : Stimulus} (h : ReadyFor turn s) : ∃ t, exec (fetch turn s) s = .next t := by
  cases turn with
  | rx v b =>
    obtain ⟨hcount, hcell⟩ := h
    cases v with
    | false => exact ⟨_, exec_fetch_rx_false⟩
    | true =>
      rcases hcount.eq_or_lt with hfull | hroom
      · exact ⟨_, exec_fetch_rx_full hfull⟩
      · exact ⟨_, exec_fetch_rx_room hroom hcell⟩
  | consume =>
    obtain ⟨hcell, hread⟩ := h
    cases hsp : s.swapPending with
    | true => exact ⟨_, exec_fetch_consume_held hsp⟩
    | false =>
      rcases eq_or_ne s.count 0 with hempty | hstored
      · exact ⟨_, exec_fetch_consume_empty hsp hempty⟩
      · obtain ⟨b, hhead⟩ := hread hstored
        exact ⟨_, exec_fetch_consume hsp hstored hcell hhead⟩
  | tick => exact ⟨_, exec_fetch_tick⟩
  | expire => exact ⟨_, exec_fetch_expire⟩
  | rst r => exact ⟨_, exec_fetch_rst r⟩

end Sys2Proof.Machine

namespace Sys2Proof.Safety

open Sys2Proof Sys2Proof.Machine

variable {s : State}

theorem StateInv.wrIdx_lt (h : StateInv s) : s.wrIdx < s.cfg.capacity := by
  rw [h.wrIdx_eq]
  exact Nat.mod_lt _ h.capacity_pos

/-- The oldest stored byte. -/
theorem StateInv.exists_head (h : StateInv s) (hstored : s.count ≠ 0) : ∃ b, s.mem.read s.rdIdx = some b := by
  have hsome := h.stored 0 (Nat.pos_of_ne_zero hstored)
  rw [Nat.add_zero, Nat.mod_eq_of_lt h.rdIdx_lt] at hsome
  exact Option.isSome_iff_exists.mp hsome

theorem StateInv.readyFor (h : StateInv s) (turn : Stimulus) : ReadyFor turn s := by
  cases turn with
  | rx => exact ⟨h.count_le, h.wrIdx_lt⟩
  | consume => exact ⟨h.rdIdx_lt, h.exists_head⟩
  | tick | expire | rst => trivial

end Sys2Proof.Safety

namespace Sys2Proof.Machine

open Sys2Proof Sys2Proof.Safety

variable {s : State}

/-- Settles O51: a well-formed state is ready for every turn, and so it is without the turn. -/
theorem stepNeverStops : Obligations.StepNeverStops := by
  intro s hs
  obtain ⟨turn, l, n, e⟩ := step_turn s
  have hready : ReadyFor turn { s with sched := l, freeCount := n } := by
    cases turn with
    | rx v b => exact hs.readyFor (.rx v b)
    | consume => exact hs.readyFor .consume
    | tick | expire | rst => trivial
  rw [e]
  exact exec_fetch_completes hready

/-! ### Placing (assumption 10) -/

theorem State.placeFull_full (hpos : 0 < s.cfg.capacity) (v : Bool) : (s.placeFull v).full = v := by
  cases v <;> simp only [State.placeFull] <;> split
  · exact beq_eq_false_iff_ne.mpr hpos.ne
  · next hroom => exact Bool.eq_false_iff.mpr hroom
  · next hfull => exact hfull
  · exact beq_self_eq_true _

theorem State.placeNonempty_empty (v : Bool) : (s.placeNonempty v).empty = !v := by
  cases v <;> simp only [State.placeNonempty] <;> split
  · next hempty => exact hempty
  · rfl
  · rfl
  · next hstored => exact Bool.eq_false_iff.mpr hstored

theorem State.receivedFor_eq (v : Bool) : (s.receivedFor v == 63) = v := by
  cases v <;> simp only [State.receivedFor]
  · split
    · rfl
    · next hmore => exact Bool.eq_false_iff.mpr hmore
  · rfl

theorem State.cursorFor_eq (v : Bool) : (s.cursorFor v == 7) = v := by
  cases v <;> simp only [State.cursorFor]
  · split
    · rfl
    · next hbelow => exact Bool.eq_false_iff.mpr hbelow
  · rfl

theorem State.placeNonempty_rdIdx (v : Bool) : (s.placeNonempty v).rdIdx = s.rdIdx := by
  cases v <;> simp only [State.placeNonempty] <;> split <;> rfl

theorem State.placeNonempty_cfg (v : Bool) : (s.placeNonempty v).cfg = s.cfg := by
  cases v <;> simp only [State.placeNonempty] <;> split <;> rfl

section placeK
variable (sp ne : Bool) (ing : IngState) (last : Bool) (head : Byte)

theorem State.placeK_rdIdx : (s.placeK sp ne ing last head).rdIdx = s.rdIdx := State.placeNonempty_rdIdx ne

theorem State.placeK_head : (s.placeK sp ne ing last head).mem.read s.rdIdx = some head :=
  Memory.read_write_same ..

/-- The CONSUMER's word in a placed state has the placed fields. -/
theorem State.placeK_word : (s.placeK sp ne ing last head).wordK = packK sp ne ing last head := by
  have hempty : (s.placeK sp ne ing last head).empty = !ne := State.placeNonempty_empty ne
  have hlast : (s.placeK sp ne ing last head).last = last := State.receivedFor_eq last
  have hhead : (s.placeK sp ne ing last head).head = head := by
    refine State.head_eq ?_
    rw [State.placeK_rdIdx]
    exact State.placeK_head ..
  rw [State.wordK, hempty, hlast, hhead, Bool.not_not]
  rfl

theorem State.placeK_readyFor (hs : StateInv s) : ReadyFor .consume (s.placeK sp ne ing last head) := by
  have hcfg : (s.placeK sp ne ing last head).cfg = s.cfg := State.placeNonempty_cfg ne
  rw [ReadyFor, State.placeK_rdIdx, hcfg]
  exact ⟨hs.rdIdx_lt, fun _ => ⟨head, State.placeK_head ..⟩⟩

end placeK

/-- The SCANNER's word in a placed state has the placed fields. -/
theorem State.placeS_word (tp wrap sp : Bool) : (s.placeS tp wrap sp).wordS = packS tp wrap sp := by
  have hwrap : (s.placeS tp wrap sp).wrap = wrap := State.cursorFor_eq wrap
  rw [State.wordS, hwrap]
  rfl

theorem State.placeFull_readyFor (hs : StateInv s) (v w : Bool) (b : Byte) : ReadyFor (.rx w b) (s.placeFull v) := by
  have hcap : ∀ n, n ≤ s.cfg.capacity → ReadyFor (.rx w b) (s.placeCount n) :=
    fun n hn => ⟨hn, Nat.mod_lt _ hs.capacity_pos⟩
  cases v <;> simp only [State.placeFull] <;> split
  · exact hcap 0 (Nat.zero_le _)
  · exact hs.readyFor _
  · exact hs.readyFor _
  · exact hcap s.cfg.capacity (le_refl _)

/-- In the placed state the agent's word is the operation's. -/
theorem fetchWord_placeBits (hs : StateInv s) (i : Instr) : fetchWord (turnOf i) (s.placeBits i) = encode i := by
  cases i with
  | pIdle full d => exact congrArg (fun f => DecodeWord.p (packP false f d)) (State.placeFull_full hs.capacity_pos full)
  | push d => exact congrArg (fun f => DecodeWord.p (packP true f d)) (State.placeFull_full hs.capacity_pos false)
  | pushDrop d => exact congrArg (fun f => DecodeWord.p (packP true f d)) (State.placeFull_full hs.capacity_pos true)
  | kHold | kEmpty | sof | ign | data | dataLast => exact congrArg DecodeWord.k (State.placeK_word ..)
  | sIdle | tick | tickWrap | tickWrapSwap => exact congrArg DecodeWord.s (State.placeS_word ..)
  | expire | xIdle | zIdle | reset => rfl

theorem State.placeBits_readyFor (hs : StateInv s) (i : Instr) : ReadyFor (turnOf i) (s.placeBits i) := by
  cases i with
  | pIdle | push | pushDrop => exact State.placeFull_readyFor hs ..
  | kHold | kEmpty | sof | ign | data | dataLast => exact State.placeK_readyFor _ _ _ _ _ hs
  | sIdle | tick | tickWrap | tickWrapSwap | expire | xIdle | zIdle | reset => trivial

/-- Settles O15: the placed state's word decodes to the operation, and the state is ready for its turn. -/
theorem placedOperationRunsNext : Obligations.PlacedOperationRunsNext := by
  intro i s hi hs
  have hfetch : fetch (turnOf i) (s.placeBits i) = i := by rw [fetch, fetchWord_placeBits hs, decode_encode hi]
  constructor
  · calc step (s.placeInstr i) = exec (fetch (turnOf i) (s.placeInstr i)) (s.placeBits i) := step_cons rfl
      _ = exec i (s.placeBits i) := by rw [State.placeInstr, fetch_sched, hfetch]
  · have hdone := exec_fetch_completes (State.placeBits_readyFor hs i)
    rwa [hfetch] at hdone

end Sys2Proof.Machine
end

section
/-!
PROOFS. Every operation keeps the well-formedness of a reachable state, in two parts: the FIFO's (10_state R31 to R34) and
that of the frame in progress (R24, R28 to R30).
-/

namespace Sys2Proof.Safety

open Sys2Proof Sys2Proof.Machine

variable {s t : State} {b : Byte}

/-! ### The FIFO's part -/

/-- The clauses of `StateInv` that speak of the FIFO. -/
structure FifoInv (s : State) : Prop where
  capacity_pos : 0 < s.cfg.capacity
  mem_wf : s.mem.wf
  mem_range : ∀ c ∈ s.mem, c.1 < s.cfg.capacity
  count_le : s.count ≤ s.cfg.capacity
  rdIdx_lt : s.rdIdx < s.cfg.capacity
  wrIdx_eq : s.wrIdx = (s.rdIdx + s.count) % s.cfg.capacity
  stored : ∀ k, k < s.count → (s.mem.read ((s.rdIdx + k) % s.cfg.capacity)).isSome = true

theorem FifoInv.congr (h : FifoInv s) (hcfg : t.cfg = s.cfg) (hmem : t.mem = s.mem) (hrd : t.rdIdx = s.rdIdx)
    (hwr : t.wrIdx = s.wrIdx) (hcount : t.count = s.count) : FifoInv t := by
  obtain ⟨h1, h2, h3, h4, h5, h6, h7⟩ := h
  constructor <;> simpa only [hcfg, hmem, hrd, hwr, hcount]

/-- The cell a PUSH stores to is none of the stored ones. -/
theorem FifoInv.cell_ne_wrIdx (h : FifoInv s) (hroom : s.count < s.cfg.capacity) {k : Nat} (hk : k < s.count) :
    (s.rdIdx + k) % s.cfg.capacity ≠ s.wrIdx := by
  rw [h.wrIdx_eq]
  exact cell_ne hk hroom

theorem FifoInv.pushed (h : FifoInv s) (hroom : s.count < s.cfg.capacity) : FifoInv (s.pushed b) where
  capacity_pos := h.capacity_pos
  mem_wf := Memory.wf_write h.mem_wf ..
  mem_range c hc := by
    rcases Memory.mem_write hc with rfl | hc
    · exact h.wrIdx_eq ▸ Nat.mod_lt _ h.capacity_pos
    · exact h.mem_range c hc
  count_le := hroom
  rdIdx_lt := h.rdIdx_lt
  wrIdx_eq := by
    show (s.wrIdx + 1) % s.cfg.capacity = (s.rdIdx + (s.count + 1)) % s.cfg.capacity
    rw [h.wrIdx_eq, Nat.mod_add_mod, Nat.add_assoc]
  stored k hk := by
    show ((s.mem.write s.wrIdx b).read ((s.rdIdx + k) % s.cfg.capacity)).isSome = true
    rcases Nat.lt_succ_iff_lt_or_eq.mp hk with hk | rfl
    · rw [Memory.read_write_other _ _ (h.cell_ne_wrIdx hroom hk)]
      exact h.stored k hk
    · rw [← h.wrIdx_eq, Memory.read_write_same]
      rfl

/-- The places counted from the next read index are those counted from this one, one further. -/
theorem nextIndex_add_mod (i c k : Nat) : (nextIndex i c + k) % c = (i + (k + 1)) % c := by
  rw [nextIndex, Nat.mod_add_mod, Nat.add_assoc, Nat.add_comm 1 k]

theorem FifoInv.advanceRead (h : FifoInv s) (hstored : s.count ≠ 0) : FifoInv s.advanceRead where
  capacity_pos := h.capacity_pos
  mem_wf := h.mem_wf
  mem_range := h.mem_range
  count_le := (Nat.sub_le ..).trans h.count_le
  rdIdx_lt := Nat.mod_lt _ h.capacity_pos
  wrIdx_eq := by
    simp only [State.advanceRead_wrIdx, State.advanceRead_rdIdx, State.advanceRead_count, State.advanceRead_cfg]
    rw [nextIndex_add_mod, Nat.sub_add_cancel (Nat.pos_of_ne_zero hstored), h.wrIdx_eq]
  stored k hk := by
    simp only [State.advanceRead_mem, State.advanceRead_rdIdx, State.advanceRead_cfg]
    rw [nextIndex_add_mod]
    exact h.stored (k + 1) (Nat.add_lt_of_lt_sub hk)

theorem FifoInv.toReset (h : FifoInv s) : FifoInv s.toReset where
  capacity_pos := h.capacity_pos
  mem_wf := h.mem_wf
  mem_range := h.mem_range
  count_le := Nat.zero_le _
  rdIdx_lt := h.capacity_pos
  wrIdx_eq := (Nat.zero_mod _).symm
  stored _ hk := absurd hk (Nat.not_lt_zero _)

theorem FifoInv.effect {i : Instr} (h : FifoInv s) (e : Effect s i t) : FifoInv t := by
  cases e with
  | none | pushDrop | expire => exact h.congr rfl rfl rfl rfl rfl
  | push _ hroom => exact h.pushed hroom
  | sof _ _ hstored | ign _ _ _ hstored | data _ _ hstored | dataLast _ _ hstored =>
    exact (h.advanceRead hstored).congr rfl rfl rfl rfl rfl
  | firing => exact h.congr (fire_cfg s) (fire_mem s) (fire_rdIdx s) (fire_wrIdx s) (fire_count s)
  | reset => exact h.toReset

/-! ### The part of the frame in progress -/

/-- The clauses of `StateInv` that speak of the decoder, the pending swap and the back bank. -/
structure FrameInv (s : State) : Prop where
  idle_zero : s.ingState = .idle → s.rcvCnt = 0
  pending_idle : s.swapPending = true → s.ingState = .idle
  back_zero : s.swapPending = false → ∀ z y : Fin 8, s.rcvCnt.val ≤ 8 * z.val + y.val → s.backRow z y = 0x00#8

theorem FrameInv.congr (h : FrameInv s) (hing : t.ingState = s.ingState) (hrcv : t.rcvCnt = s.rcvCnt)
    (hpending : t.swapPending = s.swapPending) (hfront : t.frontSel = s.frontSel) (hgrid : t.grid = s.grid) :
    FrameInv t := by
  obtain ⟨h1, h2, h3⟩ := h
  constructor <;> simpa only [hing, hrcv, hpending, State.backRow, State.backSel, hfront, hgrid]

end Sys2Proof.Safety

namespace Sys2Proof.Machine

open Sys2Proof

/-- The row at which payload byte `n` is stored. -/
theorem payload_position_iff {n : Fin 64} {z y : Fin 8} :
    payloadLayer n = z ∧ payloadRow n = y ↔ n.val = 8 * z.val + y.val := by
  simp only [Fin.ext_iff, payloadLayer, payloadRow]
  omega

theorem State.writeRow_backRow (s : State) (z y z' y' : Fin 8) (v : Byte) :
    (s.writeRow z y v).backRow z' y' = if z = z' ∧ y = y' then v else s.backRow z' y' := by
  simp [State.backRow, Grid.row_setRow]

end Sys2Proof.Machine

namespace Sys2Proof.Safety

open Sys2Proof Sys2Proof.Machine

variable {s t : State} {b : Byte}

/-- DATA fills the first of the rows that are still zero. -/
theorem FrameInv.data (h : FrameInv s) (hfree : s.swapPending = false) (hmore : s.rcvCnt ≠ 63) :
    FrameInv ((s.advanceRead.writeRow (payloadLayer s.rcvCnt) (payloadRow s.rcvCnt) b).setDecoder .receiving
      (nextReceived s.rcvCnt)) where
  idle_zero := nofun
  pending_idle hp := Bool.noConfusion (hp.symm.trans hfree)
  back_zero _ z y hpos := by
    have hnext : (nextReceived s.rcvCnt).val = s.rcvCnt.val + 1 := nextReceived_val (by omega)
    rw [State.setDecoder_rcvCnt, hnext] at hpos
    rw [State.setDecoder_backRow, State.writeRow_backRow, if_neg (by rw [payload_position_iff]; omega)]
    exact h.back_zero hfree z y (by omega)

theorem FrameInv.fire (h : FrameInv s) : FrameInv (fire s) := by
  by_cases hc : commits s = true
  · have hdone : (Machine.fire s).swapPending = false := by rw [fire_swapPending, if_pos hc]
    refine ⟨fun hi => ?_, fun hp => Bool.noConfusion (hp.symm.trans hdone),
      fun _ z y _ => fire_backRow_of_commits hc z y⟩
    rw [fire_rcvCnt]
    exact h.idle_zero (fire_ingState s ▸ hi)
  · exact h.congr (fire_ingState s) (fire_rcvCnt s) (by rw [fire_swapPending, if_neg hc])
      (by rw [fire_frontSel, if_neg hc]) (by rw [fire_grid, if_neg hc])

theorem FrameInv.toReset (s : State) : FrameInv s.toReset where
  idle_zero _ := rfl
  pending_idle := nofun
  back_zero _ z y _ := s.toReset_backRow z y

theorem FrameInv.effect {i : Instr} (h : FrameInv s) (e : Effect s i t) : FrameInv t := by
  cases e with
  | none | push | pushDrop | ign | expire => exact h.congr rfl rfl rfl rfl rfl
  | sof _ hfree _ _ _ hidle =>
    exact ⟨nofun, fun hp => Bool.noConfusion (hp.symm.trans hfree),
      fun _ z y _ => h.back_zero hfree z y (by simp [h.idle_zero hidle])⟩
  | data _ hfree _ _ _ _ hmore => exact h.data hfree hmore
  | dataLast => exact ⟨fun _ => rfl, fun _ => rfl, nofun⟩
  | firing => exact h.fire
  | reset => exact .toReset s

/-! ### The two parts together -/

theorem stateInv_iff : StateInv s ↔ FifoInv s ∧ FrameInv s :=
  ⟨fun ⟨h1, h2, h3, h4, h5, h6, h7, h8, h9, h10⟩ => ⟨⟨h1, h2, h3, h4, h5, h6, h7⟩, ⟨h8, h9, h10⟩⟩,
    fun ⟨⟨h1, h2, h3, h4, h5, h6, h7⟩, ⟨h8, h9, h10⟩⟩ => ⟨h1, h2, h3, h4, h5, h6, h7, h8, h9, h10⟩⟩

theorem StateInv.fifo (h : StateInv s) : FifoInv s := (stateInv_iff.mp h).1

theorem StateInv.effect {i : Instr} (h : StateInv s) (e : Effect s i t) : StateInv t :=
  stateInv_iff.mpr ((stateInv_iff.mp h).imp (·.effect e) (·.effect e))

/-- The invariant does not speak of the model's schedule and counter of free choices. -/
theorem StateInv.turn (h : StateInv s) (l : List Stimulus) (n : Nat) : StateInv { s with sched := l, freeCount := n } :=
  stateInv_iff.mpr ((stateInv_iff.mp h).imp (·.congr rfl rfl rfl rfl rfl) (·.congr rfl rfl rfl rfl rfl))

/-- Settles O49: the operation of the turn keeps both parts. -/
theorem stepKeepsTheInvariants : Obligations.StepKeepsTheInvariants :=
  step_invariant (fun _ l n hs => hs.turn l n) fun _ _ _ hs e => hs.effect e

theorem row_reset (b : Fin 2) (z y : Fin 8) : State.reset.grid.row b z y = 0x00#8 := by
  revert b z y
  decide

/-- Settles O50: the FIFO is empty and the grid is zero. -/
theorem resetStateMeetsTheInvariants : Obligations.ResetStateMeetsTheInvariants where
  capacity_pos := by decide
  mem_wf := Memory.wf_nil
  mem_range := nofun
  count_le := Nat.zero_le _
  rdIdx_lt := by decide
  wrIdx_eq := rfl
  stored _ hk := absurd hk (Nat.not_lt_zero _)
  idle_zero _ := rfl
  pending_idle := nofun
  back_zero _ z y _ := row_reset _ z y

end Sys2Proof.Safety
end

section
/-!
PROOFS. What the trace since reset says of the ports, the counters and the roles (10_state R37, 30_encoding R97, 41_scanner
R149, R150, 43_fifo R187). Besides RESET, which empties it, only PUSH_DROP and a firing write the trace.
-/

namespace Sys2Proof.Safety

open Sys2Proof Sys2Proof.Machine

variable {s t : State}

/-! ### The events of a firing -/

section firingTrace
variable (zb : Bool) (r : Fin 8 → Byte) (z : Fin 8) (c : Bool)

theorem firingTrace_countP_isReload : (firingTrace zb r z c).countP isReload = 1 := by cases zb <;> cases c <;> rfl

theorem firingTrace_countP_isSwap : (firingTrace zb r z c).countP Event.isSwap = c.toNat := by
  cases zb <;> cases c <;> rfl

theorem firingTrace_countP_isDrop : (firingTrace zb r z c).countP Event.isDrop = 0 := by cases zb <;> cases c <;> rfl

theorem portAfter_firingTrace (p : Port) (before : Byte) :
    portAfter p before (firingTrace zb r z c) =
      match p with
      | .px => 0x00#8
      | .py => 0xFF#8
      | .pz => pzPattern z := by cases p <;> cases zb <;> cases c <;> rfl

/-- Every event but that of PZ is the same for every layer. -/
theorem firingTrace_all_legalEvent : (firingTrace zb r z c).all legalEvent = true := by
  have hpz : legalEvent (.port .pz (pzPattern z)) = true := by
    revert z
    decide
  calc (firingTrace zb r z c).all legalEvent = (legalEvent (.port .pz (pzPattern z)) && true) := by
        cases zb <;> cases c <;> rfl
    _ = true := by rw [hpz, Bool.and_true]

end firingTrace

/-! ### The ports between firings -/

theorem PortsSettled.effect {i : Instr} (h : PortsSettled s) (e : Effect s i t) : PortsSettled t := by
  cases e with
  | none | push | pushDrop | sof | ign | data | dataLast | expire => exact ⟨h.px_blank, h.py_blank, h.pz_layer⟩
  | firing =>
    exact ⟨fire_px s, fire_py s, .inr ⟨s.layerCursor, by rw [fire_pz, layerSelect_eq_pattern],
      by rw [fire_layerCursor]; rfl⟩⟩
  | reset => exact ⟨rfl, rfl, .inl ⟨rfl, rfl⟩⟩

/-- Settles O52: a firing leaves the ports blank but for its layer on PZ. -/
theorem stepKeepsThePortsSettled : Obligations.StepKeepsThePortsSettled :=
  step_invariant (fun _ _ _ hs => ⟨hs.px_blank, hs.py_blank, hs.pz_layer⟩) fun _ _ _ hs e => hs.effect e

/-! ### The patterns put out -/

theorem TraceLegal.effect {i : Instr} (h : TraceLegal s) (e : Effect s i t) : TraceLegal t := by
  cases e with
  | none | push | sof | ign | data | dataLast | expire => exact h
  | pushDrop b =>
    intro ev hev
    rcases List.mem_append.mp hev with hev | hev
    · exact h ev hev
    · rw [List.mem_singleton.mp hev]
      rfl
  | firing =>
    intro ev hev
    rw [fire_trace] at hev
    rcases List.mem_append.mp hev with hev | hev
    · exact h ev hev
    · exact List.all_eq_true.mp (firingTrace_all_legalEvent ..) ev hev
  | reset => exact nofun

/-- Settles O53: a firing puts out only patterns of the tables. -/
theorem stepPutsOutOnlyLegalPatterns : Obligations.StepPutsOutOnlyLegalPatterns :=
  step_invariant (fun _ _ _ hs => hs) fun _ _ _ hs e => hs.effect e

/-! ### The drop counter -/

theorem satSucc16_toNat (v : BitVec 16) : (satSucc16 v).toNat = min (v.toNat + 1) 0xFFFF := by
  rw [satSucc16, BitVec.toNat_ofNat]
  exact Nat.mod_eq_of_lt (by omega)

theorem DropsCounted.effect {i : Instr} (h : DropsCounted s) (e : Effect s i t) : DropsCounted t := by
  cases e with
  | none | push | sof | ign | data | dataLast | expire => exact h
  | pushDrop b =>
    show (satSucc16 s.dropCnt).toNat = min ((s.trace ++ [Event.drop b]).countP Event.isDrop) 0xFFFF
    have hone : [Event.drop b].countP Event.isDrop = 1 := rfl
    rw [satSucc16_toNat, h, List.countP_append, hone]
    omega
  | firing =>
    rw [DropsCounted, fire_dropCnt, fire_trace, List.countP_append, fireTrace, firingTrace_countP_isDrop]
    exact h
  | reset => rfl

/-- Settles O54: PUSH_DROP counts and emits one drop. -/
theorem stepKeepsTheDropCount : Obligations.StepKeepsTheDropCount :=
  step_invariant (fun _ _ _ hs => hs) fun _ _ _ hs e => hs.effect e

/-! ### The cursor and the roles -/

theorem otherBank_val (b : Fin 2) : (otherBank b).val = (b.val + 1) % 2 := by
  revert b
  decide

theorem SequenceCounted.effect {i : Instr} (h : SequenceCounted s) (e : Effect s i t) : SequenceCounted t := by
  cases e with
  | none | push | sof | ign | data | dataLast | expire => exact ⟨h.cursor, h.front⟩
  | pushDrop b =>
    refine ⟨h.cursor.trans ?_, h.front.trans ?_⟩ <;> rw [State.emit_trace, List.countP_append] <;> rfl
  | firing =>
    constructor
    · rw [fire_layerCursor, fire_trace, List.countP_append, fireTrace, firingTrace_countP_isReload]
      show (s.layerCursor.val + 1) % 8 = _
      rw [h.cursor, Nat.mod_add_mod]
    · rw [fire_frontSel, fire_trace, List.countP_append, fireTrace, firingTrace_countP_isSwap]
      cases commits s with
      | false => exact h.front
      | true =>
        rw [if_pos rfl, otherBank_val, h.front, Nat.mod_add_mod]
        rfl
  | reset => exact ⟨rfl, rfl⟩

/-- Settles O55: a firing advances the cursor and reloads the timer once, and exchanges the roles where it emits SWAP. -/
theorem stepKeepsTheSequenceCounts : Obligations.StepKeepsTheSequenceCounts :=
  step_invariant (fun _ _ _ hs => ⟨hs.cursor, hs.front⟩) fun _ _ _ hs e => hs.effect e

/-! ### The ports as the trace has them -/

theorem portAfter_append (p : Port) (before : Byte) (l l' : List Event) :
    portAfter p before (l ++ l') = portAfter p (portAfter p before l) l' := by
  induction l generalizing before with
  | nil => rfl
  | cons e l ih => cases e <;> exact ih _

theorem PortsTraced.effect {i : Instr} (h : PortsTraced s) (e : Effect s i t) : PortsTraced t := by
  cases e with
  | none | push | sof | ign | data | dataLast | expire => exact ⟨h.px, h.py, h.pz⟩
  | pushDrop b =>
    refine ⟨h.px.trans ?_, h.py.trans ?_, h.pz.trans ?_⟩ <;> rw [State.emit_trace, portAfter_append] <;> rfl
  | firing =>
    constructor <;> rw [fire_trace, portAfter_append, fireTrace, portAfter_firingTrace]
    · exact fire_px s
    · exact fire_py s
    · rw [fire_pz, layerSelect_eq_pattern]
  | reset => exact ⟨rfl, rfl, rfl⟩

/-- Settles O56: a firing leaves on each port what its last event for that port says. -/
theorem stepTracesEveryPortWrite : Obligations.StepTracesEveryPortWrite :=
  step_invariant (fun _ _ _ hs => ⟨hs.px, hs.py, hs.pz⟩) fun _ _ _ hs e => hs.effect e

/-- Settles O57: the trace is empty. -/
theorem resetStateMeetsTheTraceInvariants : Obligations.ResetStateMeetsTheTraceInvariants :=
  ⟨⟨rfl, rfl, .inl ⟨rfl, rfl⟩⟩, nofun, rfl, ⟨rfl, rfl⟩, ⟨rfl, rfl, rfl⟩⟩

end Sys2Proof.Safety
end

section
/-!
PROOFS. The FIFO as a queue, and what the PRODUCER and the CONSUMER write (43_fifo R181 to R188, 42_ingest R160 to R167,
60_exceptions section 4).
-/

namespace Sys2Proof.Machine

open Sys2Proof Sys2Proof.Safety

variable {s t : State} {b d : Byte} {i : Instr}

/-- Settles O13. -/
theorem indexIncrementWraps : Obligations.IndexIncrementWraps := by
  intro i c _
  refine ⟨fun h => Nat.mod_eq_of_lt h, fun h => ?_⟩
  rw [nextIndex, h, Nat.mod_self]

/-! ### PRODUCER -/

/-- Settles O18. -/
theorem pushStoresTheByte : Obligations.PushStoresTheByte := by
  intro s b hroom hcell
  refine ⟨s.pushed b, exec_push_of_room hroom hcell, rfl, ?_, fun a ha => ?_, rfl, ?_, rfl⟩
  · exact Memory.read_write_same ..
  · exact Memory.read_write_other _ _ ha
  · exact State.full_eq_true_iff

/-- Settles O19. -/
theorem pushDropRefusesTheByte : Obligations.PushDropRefusesTheByte := by
  intro s b hfull
  exact ⟨_, exec_pushDrop_of_full (State.full_eq_true_iff.mpr hfull), rfl, satSucc16_toNat _, rfl⟩

theorem storedCells_pushed (h : FifoInv s) (hroom : s.count < s.cfg.capacity) :
    storedCells (s.pushed b) = storedCells s ++ [some b] := by
  show (List.range (s.count + 1)).map (fun k => (s.mem.write s.wrIdx b).read ((s.rdIdx + k) % s.cfg.capacity)) = _
  rw [List.range_succ, List.map_append, List.map_singleton, ← h.wrIdx_eq, Memory.read_write_same]
  congr 1
  refine List.map_congr_left fun k hk => ?_
  exact Memory.read_write_other _ _ (h.cell_ne_wrIdx hroom (List.mem_range.mp hk))

/-- Settles O20. -/
theorem pushAppendsToTheQueue : Obligations.PushAppendsToTheQueue := by
  intro s t b hs h
  obtain ⟨hroom, -, rfl⟩ := exec_push_next h
  exact storedCells_pushed hs.fifo hroom

/-- Settles O22: the state after each operation is known outright. -/
theorem producerWritesOnlyItsOwnState : Obligations.ProducerWritesOnlyItsOwnState := by
  intro s t full b
  refine ⟨fun h => ?_, fun h => ?_, fun h => ?_⟩
  · obtain ⟨-, -, rfl⟩ := exec_push_next h
    exact ⟨⟨rfl, rfl, rfl⟩, rfl, ⟨rfl, rfl⟩, ⟨rfl, rfl⟩, ⟨rfl, rfl, rfl, rfl, rfl⟩, rfl, rfl, rfl,
      fun _ ha => Memory.read_write_other _ _ ha⟩
  · obtain ⟨-, rfl⟩ := exec_pushDrop_next h
    exact ⟨⟨rfl, rfl, rfl⟩, rfl, ⟨rfl, rfl⟩, ⟨rfl, rfl⟩, ⟨rfl, rfl, rfl, rfl, rfl⟩, rfl, rfl, rfl, fun _ _ => rfl⟩
  · obtain rfl := exec_pIdle_next h
    exact ⟨⟨rfl, rfl, rfl⟩, rfl, ⟨rfl, rfl⟩, ⟨rfl, rfl⟩, ⟨rfl, rfl, rfl, rfl, rfl⟩, rfl, ⟨rfl, rfl, rfl, rfl⟩,
      fun _ _ => rfl⟩

/-! ### CONSUMER -/

/-- Settles O26. -/
theorem dataLastCompletesTheFrame : Obligations.DataLastCompletesTheFrame := by
  intro s b hfree hstored hcell hhead hreceiving hlast
  have hl : s.last = true := State.last_eq_true_iff.mpr hlast
  exact ⟨_, consumeForm_of_head hfree hstored hcell hhead (by simp [hreceiving, hl]), rfl,
    s.advanceRead.writeRow_grid_row 7 7 b⟩

theorem poppedByte_of_isNoStep (h : isNoStep i = true) : poppedByte i = none := by
  cases i with
  | sof | ign | data | dataLast => cases h
  | _ => rfl

theorem poppedByte_of_isFiring (h : isFiring i = true) : poppedByte i = none := by
  cases i with
  | sof | ign | data | dataLast => cases h
  | _ => rfl

/-- An operation that pops a byte pops the head of the FIFO and decodes it. -/
theorem Effect.of_poppedByte (e : Effect s i t) (hpop : poppedByte i = some b) :
    s.swapPending = false ∧ s.count ≠ 0 ∧ s.rdIdx < s.cfg.capacity ∧ s.mem.read s.rdIdx = some b ∧
      t = s.consumed b := by
  cases e with
  | sof _ hfree hstored hcell hhead hidle =>
    cases hpop
    exact ⟨hfree, hstored, hcell, hhead, by simp [State.consumed, hidle]⟩
  | ign _ _ hfree hstored hcell hhead hnoise hidle =>
    cases hpop
    exact ⟨hfree, hstored, hcell, hhead, by simp [State.consumed, hidle, hnoise]⟩
  | data _ hfree hstored hcell hhead hreceiving hmore =>
    cases hpop
    exact ⟨hfree, hstored, hcell, hhead, by simp [State.consumed, hreceiving, State.last, hmore]⟩
  | dataLast _ hfree hstored hcell hhead hreceiving hlast =>
    cases hpop
    exact ⟨hfree, hstored, hcell, hhead, by simp [State.consumed, hreceiving, State.last, hlast]⟩
  | none _ hkind => exact absurd hpop (by simp [poppedByte_of_isNoStep hkind])
  | firing _ _ hkind => exact absurd hpop (by simp [poppedByte_of_isFiring hkind])
  | push | pushDrop | expire | reset => cases hpop

/-- Decoding a popped byte writes the grid, the pending swap and the decoder, besides the POP. -/
theorem State.consumed_eq (s : State) (b : Byte) :
    s.consumed b = { s.advanceRead with
      grid := (s.consumed b).grid
      swapPending := (s.consumed b).swapPending
      ingState := (s.consumed b).ingState
      rcvCnt := (s.consumed b).rcvCnt } := by
  unfold State.consumed
  split <;> split <;> rfl

section consumed
variable (s : State) (b : Byte)
@[simp] theorem State.consumed_cfg : (s.consumed b).cfg = s.cfg := by rw [State.consumed_eq]; rfl
@[simp] theorem State.consumed_mem : (s.consumed b).mem = s.mem := by rw [State.consumed_eq]; rfl
@[simp] theorem State.consumed_rdIdx : (s.consumed b).rdIdx = s.advanceRead.rdIdx := by rw [State.consumed_eq]
@[simp] theorem State.consumed_wrIdx : (s.consumed b).wrIdx = s.wrIdx := by rw [State.consumed_eq]; rfl
@[simp] theorem State.consumed_count : (s.consumed b).count = s.count - 1 := by rw [State.consumed_eq]; rfl
@[simp] theorem State.consumed_dropCnt : (s.consumed b).dropCnt = s.dropCnt := by rw [State.consumed_eq]; rfl
@[simp] theorem State.consumed_frontSel : (s.consumed b).frontSel = s.frontSel := by rw [State.consumed_eq]; rfl
@[simp] theorem State.consumed_trace : (s.consumed b).trace = s.trace := by rw [State.consumed_eq]; rfl
@[simp] theorem State.consumed_sched : (s.consumed b).sched = s.sched := by rw [State.consumed_eq]; rfl
end consumed

theorem storedCells_consumed : storedCells (s.consumed b) = storedCells s.advanceRead :=
  storedCells_congr (State.consumed_count ..) (State.consumed_mem ..) (State.consumed_rdIdx ..) (State.consumed_cfg ..)

/-- Settles O28: what is left after the POP are the younger cells. -/
theorem consumeTakesTheOldestByte : Obligations.ConsumeTakesTheOldestByte := by
  intro s t last b i hi h
  have hpop : poppedByte i = some b := by
    rcases hi with ⟨rfl, rfl⟩ | rfl | rfl | rfl <;> rfl
  obtain ⟨-, hstored, hcell, hhead, rfl⟩ := (exec_effect h).of_poppedByte hpop
  rw [storedCells_advanceRead hstored hcell, hhead, storedCells_consumed]

/-- Settles O29: the state after each operation is known outright; the one row written is that of byte `rcv_cnt`. -/
theorem consumerWritesOnlyItsOwnState : Obligations.ConsumerWritesOnlyItsOwnState := by
  intro s t ne last ing b
  refine ⟨fun i hi h => ?_, fun i hi h => ?_, fun i hi h => ?_⟩
  · obtain rfl : t = s := by
      rcases hi with rfl | rfl
      · exact (exec_kHold_next h).2
      · exact (exec_kEmpty_next h).2.2
    exact ⟨⟨rfl, rfl, rfl⟩, rfl, ⟨rfl, rfl⟩, ⟨rfl, rfl⟩, ⟨rfl, rfl, rfl, rfl, rfl⟩, rfl, ⟨rfl, rfl, rfl, rfl⟩,
      fun _ _ => rfl⟩
  · rcases hi with rfl | rfl
    · obtain ⟨-, -, -, -, -, rfl⟩ := exec_sof_next h
      exact ⟨⟨rfl, rfl, rfl⟩, rfl, ⟨rfl, rfl⟩, ⟨rfl, rfl, rfl, rfl, rfl⟩, rfl, rfl, rfl, fun _ _ => rfl⟩
    · obtain ⟨-, -, -, -, -, -, rfl⟩ := exec_ign_next h
      exact ⟨⟨rfl, rfl, rfl⟩, rfl, ⟨rfl, rfl⟩, ⟨rfl, rfl, rfl, rfl, rfl⟩, rfl, rfl, rfl, fun _ _ => rfl⟩
  · rcases hi with rfl | rfl
    · obtain ⟨-, -, -, -, -, -, rfl⟩ := exec_data_next h
      exact ⟨⟨rfl, rfl, rfl⟩, fun b' z y hrow => (s.advanceRead.writeRow_grid_row ..).trans (if_neg hrow), rfl,
        ⟨rfl, rfl, rfl, rfl, rfl⟩, rfl, rfl, rfl, fun _ _ => rfl⟩
    · obtain ⟨-, -, -, -, -, hlast, rfl⟩ := exec_dataLast_next h
      rw [hlast]
      exact ⟨⟨rfl, rfl, rfl⟩, fun b' z y hrow => (s.advanceRead.writeRow_grid_row ..).trans (if_neg hrow), rfl,
        ⟨rfl, rfl, rfl, rfl, rfl⟩, rfl, rfl, rfl, fun _ _ => rfl⟩

/-- Settles O30: of the effects only those of DATA_LAST and RESET end in IDLE from RECEIVING. -/
theorem onlyDataLastAndResetLeaveReceiving : Obligations.OnlyDataLastAndResetLeaveReceiving := by
  intro i s t h hreceiving hidle
  have hne : t.ingState ≠ s.ingState := by simp [hreceiving, hidle]
  cases exec_effect h with
  | none | push | pushDrop | ign | expire => exact absurd rfl hne
  | sof | data => cases hidle
  | dataLast b _ _ _ _ _ hlast => exact .inr ⟨⟨b, rfl⟩, by rw [hlast]; rfl⟩
  | firing => exact absurd (fire_ingState s) hne
  | reset => exact .inl rfl

/-! ### PUSH and CONSUME in one instant (20_memory R78) -/

/-- The two operations write different fields but for `count`. -/
theorem State.pushed_consumed (hstored : s.count ≠ 0) : (s.pushed b).consumed d = (s.consumed d).pushed b := by
  have hcount : s.count + 1 - 1 = s.count - 1 + 1 := by omega
  have hpop : (s.pushed b).advanceRead = s.advanceRead.pushed b := by
    simp only [State.advanceRead, State.pushed, State.advanceWrite, hcount]
  unfold State.consumed
  cases hing : s.ingState with
  | idle =>
    simp only [show (s.pushed b).ingState = .idle from hing, hpop]
    split <;> rfl
  | receiving =>
    simp only [show (s.pushed b).ingState = .receiving from hing, show (s.pushed b).last = s.last from rfl, hpop]
    split <;> rfl

/-- A PUSH leaves the oldest byte where it is. -/
theorem State.pushed_head (h : FifoInv s) (hstored : s.count ≠ 0) (hroom : s.count < s.cfg.capacity) :
    (s.pushed b).mem.read s.rdIdx = s.mem.read s.rdIdx := by
  have hne := h.cell_ne_wrIdx hroom (Nat.pos_of_ne_zero hstored)
  rw [Nat.add_zero, Nat.mod_eq_of_lt h.rdIdx_lt] at hne
  exact Memory.read_write_other _ _ hne

/-- Settles O31: both orders end in the same state. -/
theorem pushAndConsumeCommuteInside : Obligations.PushAndConsumeCommuteInside := by
  intro s b hs hfree hpos hroom
  have hstored : s.count ≠ 0 := hpos.ne'
  obtain ⟨d, hhead⟩ := hs.exists_head hstored
  refine ⟨s.pushed b, s.consumed d, (s.pushed b).consumed d, exec_push_of_room hroom hs.wrIdx_lt, ?_, ?_, ?_⟩
  · exact exec_fetch_consume hfree (Nat.succ_ne_zero _) hs.rdIdx_lt ((State.pushed_head hs.fifo hstored hroom).trans hhead)
  · exact exec_fetch_consume hfree hstored hs.rdIdx_lt hhead
  · rw [State.pushed_consumed hstored]
    refine exec_push_of_room ?_ ?_
    · rw [State.consumed_count, State.consumed_cfg]
      omega
    · rw [State.consumed_wrIdx, State.consumed_cfg]
      exact hs.wrIdx_lt

theorem fifoInv_consumed (h : FifoInv s) (hstored : s.count ≠ 0) : FifoInv (s.consumed b) :=
  (h.advanceRead hstored).congr (State.consumed_cfg ..) (State.consumed_mem ..) (State.consumed_rdIdx ..)
    (State.consumed_wrIdx ..) (State.consumed_count ..)

/-- Settles O32: the order decides which of the two finds the FIFO full, or empty. -/
theorem pushAndConsumeOrderMattersAtTheEnds : Obligations.PushAndConsumeOrderMattersAtTheEnds := by
  refine ⟨fun s b hs hfree hfull => ?_, fun s b hs hfree hempty => ?_⟩
  · have hstored : s.count ≠ 0 := by rw [hfull]; exact hs.capacity_pos.ne'
    obtain ⟨d, hhead⟩ := hs.exists_head hstored
    have hcells := storedCells_advanceRead hstored hs.rdIdx_lt
    have hpop := exec_fetch_consume hfree hstored hs.rdIdx_lt hhead
    constructor
    · refine ⟨_, (s.countDrop.emit (.drop b)).consumed d, exec_fetch_rx_full hfull, ?_, ?_, ?_, ?_⟩
      · exact exec_fetch_consume hfree hstored hs.rdIdx_lt hhead
      · rw [State.consumed_count]
        exact (Nat.sub_add_cancel (Nat.pos_of_ne_zero hstored)).trans hfull
      · rw [State.consumed_dropCnt]
        exact satSucc16_toNat _
      · rw [hcells, storedCells_consumed]
        rfl
    · have hroom : (s.consumed d).count < (s.consumed d).cfg.capacity := by
        rw [State.consumed_count, State.consumed_cfg]
        omega
      have hfifo : FifoInv (s.consumed d) := fifoInv_consumed hs.fifo hstored
      refine ⟨_, (s.consumed d).pushed b, hpop, ?_, ?_, ?_, ?_⟩
      · exact exec_fetch_rx_room hroom (hfifo.wrIdx_eq ▸ Nat.mod_lt _ hfifo.capacity_pos)
      · show (s.consumed d).count + 1 = s.cfg.capacity
        rw [State.consumed_count]
        omega
      · exact State.consumed_dropCnt ..
      · rw [storedCells_pushed hfifo hroom, storedCells_consumed, hcells]
        rfl
  · have hroom : s.count < s.cfg.capacity := hempty ▸ hs.capacity_pos
    have hpush : exec (fetch (.rx true b) s) s = .next (s.pushed b) := exec_fetch_rx_room hroom hs.wrIdx_lt
    have hcells : storedCells (s.pushed b) = [some b] := by
      rw [storedCells_pushed hs.fifo hroom, storedCells_empty hempty, List.nil_append]
    have hone : (s.pushed b).count ≠ 0 := Nat.succ_ne_zero _
    have hhead : (s.pushed b).mem.read s.rdIdx = some b := by
      rw [storedCells_advanceRead hone hs.rdIdx_lt] at hcells
      exact (List.cons.inj hcells).1
    refine ⟨⟨_, exec_fetch_consume_empty hfree hempty, hpush, hcells⟩, _, (s.pushed b).consumed b, hpush, hhead, ?_, ?_⟩
    · exact exec_fetch_consume hfree hone hs.rdIdx_lt hhead
    · refine storedCells_empty ?_
      rw [State.consumed_count]
      exact hempty

/-! ### FIFO storage as data (10_state R44) -/

/-- Below the first listed cell of a canonical storage nothing is listed. -/
theorem Memory.read_eq_none {m : Memory} {a : Nat} (h : ∀ c ∈ m, a < c.1) : m.read a = none := by
  induction m with
  | nil => rfl
  | cons c m ih =>
    obtain ⟨hc, hm⟩ := List.forall_mem_cons.mp h
    rw [Memory.read_cons, if_neg hc.ne', ih hm]

theorem Memory.read_head {c : Host.Cell} {m : Memory} : Memory.read (c :: m) c.1 = some c.2 := by
  rw [Memory.read_cons, if_pos rfl]

/-- The first index of a canonical storage is the least at which it reads a value. -/
theorem Memory.head_le {c c' : Host.Cell} {m m' : Memory} (hm' : Memory.wf (c' :: m'))
    (hread : ∀ a, Memory.read (c :: m) a = Memory.read (c' :: m') a) : c'.1 ≤ c.1 := by
  by_contra hlt
  have hlt : c.1 < c'.1 := Nat.lt_of_not_le hlt
  have hnone : Memory.read (c' :: m') c.1 = none :=
    Memory.read_eq_none (List.forall_mem_cons.mpr ⟨hlt, fun d hd => hlt.trans ((List.pairwise_cons.mp hm').1 d hd)⟩)
  exact absurd (hread c.1) (by simp [Memory.read_head, hnone])

/-- Settles O59: the first cells agree, and so do the storages without them. -/
theorem equalReadsAreEqualStorage : Obligations.EqualReadsAreEqualStorage := by
  intro m m' hm hm' hread
  induction m generalizing m' with
  | nil =>
    cases m' with
    | nil => rfl
    | cons c m' => exact absurd (hread c.1) (by simp [Memory.read_head])
  | cons c m ih =>
    cases m' with
    | nil => exact absurd (hread c.1) (by simp [Memory.read_head])
    | cons c' m' =>
      have hindex : c.1 = c'.1 := le_antisymm (Memory.head_le hm fun a => (hread a).symm) (Memory.head_le hm' hread)
      have hbyte : c.2 = c'.2 := by
        have h := hread c.1
        rw [Memory.read_head, hindex, Memory.read_head] at h
        exact Option.some.inj h
      obtain ⟨hc, hm⟩ := List.pairwise_cons.mp hm
      obtain ⟨hc', hm'⟩ := List.pairwise_cons.mp hm'
      rw [Prod.ext hindex hbyte, ih m' hm hm' fun a => ?_]
      by_cases ha : c.1 = a
      · subst ha
        rw [Memory.read_eq_none hc, Memory.read_eq_none (hindex ▸ hc')]
      · have h := hread a
        rwa [Memory.read_cons, Memory.read_cons, if_neg ha, if_neg (hindex ▸ ha)] at h

end Sys2Proof.Machine
end

section
/-!
PROOFS. The firings, the roles of the banks, and RESET (41_scanner R140 to R150, 40_grid_swap R125, 70_reset R230).
-/

namespace Sys2Proof.Machine

open Sys2Proof Sys2Proof.Safety

variable {s t : State} {i : Instr}

/-! ### The state after a firing (41_scanner R140) -/

theorem nextLayer_eq_add_one (z : Fin 8) : nextLayer z = z + 1 := by
  revert z
  decide

theorem fire_of_not_commits (hc : commits s = false) :
    fire s = { s with
      tickPending := false
      layerCursor := s.layerCursor + 1
      px := 0x00#8
      py := 0xFF#8
      pz := pzPattern s.layerCursor
      trace := s.trace ++ firingTrace s.cfg.zBlankOnEntry (s.frontRow s.layerCursor) s.layerCursor false } := by
  rw [fire_eq, fireTrace, layerSelect_eq_pattern, nextLayer_eq_add_one]
  simp [hc]

theorem fire_of_commits (hc : commits s = true) :
    fire s = { s with
      tickPending := false
      layerCursor := s.layerCursor + 1
      px := 0x00#8
      py := 0xFF#8
      pz := pzPattern s.layerCursor
      frontSel := otherBank s.frontSel
      grid := s.grid.clear s.frontSel 0x00#8
      swapPending := false
      trace := s.trace ++ firingTrace s.cfg.zBlankOnEntry (s.frontRow s.layerCursor) s.layerCursor true } := by
  rw [fire_eq, fireTrace, layerSelect_eq_pattern, nextLayer_eq_add_one]
  simp [hc]

/-- Settles O35: below layer 7 no firing commits. -/
theorem tickPaintsItsLayer : Obligations.TickPaintsItsLayer := by
  intro s sp hrequested hbelow
  have hwrap : s.wrap = false := beq_eq_false_iff_ne.mpr fun h => by simp [h] at hbelow
  refine whenSelected_next.mpr ⟨by simp [hrequested, hwrap], congrArg _ ?_⟩
  exact fire_of_not_commits (by simp [commits, hwrap])

/-- Settles O36. -/
theorem tickWrapPaintsTheTopLayer : Obligations.TickWrapPaintsTheTopLayer := by
  intro s hrequested htop hfree
  refine whenSelected_next.mpr ⟨by simp [hrequested, State.wrap, htop, hfree], congrArg _ ?_⟩
  rw [fire_of_not_commits (by simp [commits, hfree]), htop]
  rfl

/-- Settles O37. -/
theorem tickWrapSwapCommits : Obligations.TickWrapSwapCommits := by
  intro s hrequested htop hpending
  have hc : commits s = true := (commits_iff s).mpr ⟨htop, hpending⟩
  refine ⟨fire s, whenSelected_next.mpr ⟨by simp [hrequested, State.wrap, htop, hpending], rfl⟩, ?_, fun z y => ?_,
    fun z y => ?_, rfl⟩
  · rw [fire_of_commits hc, htop]
    rfl
  · rw [fire_grid, if_pos hc]
    exact (Grid.row_clear ..).trans (if_neg (otherBank_ne s.frontSel).symm)
  · rw [fire_grid, if_pos hc, Grid.row_clear, if_pos rfl]

/-- Settles O38: a firing writes the SCANNER's registers, and the roles and the grid where it commits. -/
theorem scannerWritesOnlyItsOwnState : Obligations.ScannerWritesOnlyItsOwnState := by
  intro s t wrap sp
  have hparams : SameParams s (fire s) := ⟨fire_cfg s, fire_sched s, fire_freeCount s⟩
  have hdecoder : SameDecoder s (fire s) := ⟨fire_ingState s, fire_rcvCnt s⟩
  have hfifo : SameFifo s (fire s) := ⟨fire_rdIdx s, fire_wrIdx s, fire_count s, fire_dropCnt s⟩
  have hcells : SameCellsBut (fun _ => False) s (fire s) := fun _ _ => by rw [fire_mem]
  refine ⟨fun h => ?_, fun i hi h => ?_, fun h => ?_⟩
  · obtain ⟨-, rfl⟩ := exec_sIdle_next h
    exact ⟨⟨rfl, rfl, rfl⟩, rfl, ⟨rfl, rfl⟩, ⟨rfl, rfl⟩, ⟨rfl, rfl, rfl, rfl, rfl⟩, rfl, ⟨rfl, rfl, rfl, rfl⟩,
      fun _ _ => rfl⟩
  · obtain ⟨hc, rfl⟩ : commits s = false ∧ t = fire s := by
      rcases hi with rfl | rfl
      · obtain ⟨-, hbelow, rfl⟩ := exec_tick_next h
        exact ⟨Bool.eq_false_iff.mpr fun hc => hbelow ((commits_iff s).mp hc).1, rfl⟩
      · obtain ⟨-, -, hfree, rfl⟩ := exec_tickWrap_next h
        exact ⟨by simp [commits, hfree], rfl⟩
    exact ⟨hparams, by simp [fire_grid, hc], ⟨by simp [fire_frontSel, hc], by simp [fire_swapPending, hc]⟩, hdecoder,
      hfifo, hcells⟩
  · obtain ⟨-, htop, hpending, rfl⟩ := exec_tickWrapSwap_next h
    have hc : commits s = true := (commits_iff s).mpr ⟨htop, hpending⟩
    refine ⟨hparams, fun b z y hb => ?_, hdecoder, hfifo, hcells⟩
    rw [fire_grid, if_pos hc, Grid.row_clear, if_neg fun h => hb h.symm]

/-! ### The front bank and the pending swap -/

/-- A row write of the back bank leaves the front bank as it is. -/
@[simp] theorem State.writeRow_frontRow (u : State) (z y z' y' : Fin 8) (v : Byte) :
    (u.writeRow z y v).frontRow z' y' = u.frontRow z' y' :=
  (u.writeRow_grid_row ..).trans (if_neg fun h => otherBank_ne u.frontSel h.1.symm)

/-- Only a commit and RESET write the front bank or its role. -/
theorem Effect.keeps_front (e : Effect s i t) (hcommit : i ≠ .tickWrapSwap) (hreset : i ≠ .reset) :
    t.frontSel = s.frontSel ∧ ∀ z y, t.frontRow z y = s.frontRow z y := by
  cases e with
  | none | push | pushDrop | sof | ign | expire => exact ⟨rfl, fun _ _ => rfl⟩
  | data | dataLast => exact ⟨rfl, fun _ _ => s.advanceRead.writeRow_frontRow ..⟩
  | firing _ _ _ hc =>
    have hc : commits s = false := Bool.eq_false_iff.mpr fun h => hcommit (hc.mp h)
    rw [fire_of_not_commits hc]
    exact ⟨rfl, fun _ _ => rfl⟩
  | reset => exact absurd rfl hreset

/-- Settles O45. -/
theorem frontBankChangesOnlyInCommitAndReset : Obligations.FrontBankChangesOnlyInCommitAndReset :=
  fun _ _ _ h => (exec_effect h).keeps_front

/-- Settles O43: of the effects only a commit and RESET clear the request. -/
theorem onlyTheWrapAndResetLiftTheHold : Obligations.OnlyTheWrapAndResetLiftTheHold := by
  intro i s t h hpending hlifted
  have hne : t.swapPending ≠ s.swapPending := by simp [hpending, hlifted]
  cases exec_effect h with
  | none | push | pushDrop | sof | ign | data | expire => exact absurd rfl hne
  | dataLast => cases hlifted
  | firing _ hrequested _ hc =>
    by_cases hcommit : commits s = true
    · exact .inr ⟨hc.mp hcommit, ((commits_iff s).mp hcommit).1, hrequested⟩
    · exact absurd (by rw [fire_swapPending, if_neg hcommit]) hne
  | reset => exact .inl rfl

/-! ### The back bank is not put out (10_state section 1) -/

section backBank
variable {g : Grid}

/-- Does a state agree with another in every field but the grid? -/
def AgreesButGrid (t u : State) : Prop := u = { t with grid := u.grid }

/-- A firing puts out the front bank alone. -/
theorem fire_agreesButGrid (hfront : ∀ z y, g.row s.frontSel z y = s.grid.row s.frontSel z y) :
    AgreesButGrid (fire s) (fire { s with grid := g }) := by
  have htrace : fireTrace { s with grid := g } = fireTrace s :=
    congrArg (fun r => firingTrace s.cfg.zBlankOnEntry r s.layerCursor (commits s)) (funext fun y => hfront _ y)
  have hc : commits { s with grid := g } = commits s := rfl
  simp only [AgreesButGrid, fire_eq, htrace, hc]

/-- A form of CONSUME reads nothing of the grid. -/
theorem consumeForm_agreesButGrid {m : String} {form : Byte → Bool} {act : Byte → State → State}
    (hact : ∀ b (v : State), AgreesButGrid (act b v) (act b { v with grid := g }))
    (h : consumeForm m form act s = .next t) :
    ∃ u, consumeForm m form act { s with grid := g } = .next u ∧ AgreesButGrid t u := by
  obtain ⟨b, hfree, hstored, hcell, hhead, hform, rfl⟩ := consumeForm_next.mp h
  exact ⟨_, consumeForm_next.mpr ⟨b, hfree, hstored, hcell, hhead, hform, rfl⟩, hact b s.advanceRead⟩

theorem whenSelected_agreesButGrid {m : String} {c : Bool} {v v' : State}
    (h : whenSelected m c (.next v) = .next t) (hv : AgreesButGrid v v') :
    ∃ u, whenSelected m c (.next v') = .next u ∧ AgreesButGrid t u := by
  obtain ⟨hc, e⟩ := whenSelected_next.mp h
  cases e
  exact ⟨v', whenSelected_next.mpr ⟨hc, rfl⟩, hv⟩

/-- Over another back bank every operation runs alike. -/
theorem exec_agreesButGrid (hfront : ∀ z y, g.row s.frontSel z y = s.grid.row s.frontSel z y)
    (h : exec i s = .next t) : ∃ u, exec i { s with grid := g } = .next u ∧ AgreesButGrid t u := by
  cases i with
  | pIdle | zIdle | reset =>
    cases h
    exact ⟨_, rfl, rfl⟩
  | push b =>
    obtain ⟨hroom, hcell, rfl⟩ := exec_push_next h
    exact ⟨_, exec_push_of_room (s := { s with grid := g }) hroom hcell, rfl⟩
  | pushDrop | kHold | kEmpty | sIdle | expire | xIdle => exact whenSelected_agreesButGrid h rfl
  | sof | ign => exact consumeForm_agreesButGrid (fun _ _ => rfl) h
  | data | dataLast => exact consumeForm_agreesButGrid (fun _ _ => rfl) h
  | tick | tickWrap | tickWrapSwap => exact whenSelected_agreesButGrid h (fire_agreesButGrid hfront)

end backBank

/-- Settles O39: trace and pins are no part of the grid. -/
theorem backBankIsInvisible : Obligations.BackBankIsInvisible := by
  intro i s t g hfront h
  obtain ⟨u, hu, hagree⟩ := exec_agreesButGrid hfront h
  exact ⟨u, hu, hagree, by rw [hagree], by rw [hagree]; rfl⟩

/-! ### RESET -/

/-- Settles O47: clearing both banks gives the reset grid. -/
theorem resetRestoresTheResetState : Obligations.ResetRestoresTheResetState := by
  intro s
  have hgrid : (s.grid.clear 0 0x00#8).clear 1 0x00#8 = State.reset.grid := by
    refine Grid.ext_rows fun b z y => ?_
    rw [Grid.row_clear, Grid.row_clear, row_reset]
    revert b
    simp [Fin.forall_fin_two]
  refine ⟨s.toReset, rfl, ?_, rfl, rfl, fun hpos => State.full_eq_false_iff.mpr hpos.ne⟩
  rw [State.toReset, hgrid]
  rfl

/-- Settles O48. -/
theorem resetStateHoldsTheListedValues : Obligations.ResetStateHoldsTheListedValues :=
  ⟨row_reset, rfl, rfl, rfl, rfl, rfl, rfl, rfl, rfl, rfl, rfl, rfl, rfl, rfl, rfl⟩

/-! ### Firings one after the other (41_scanner R150) -/

/-- A step with a turn in the schedule, read on the state without the turn. -/
theorem step_of_sched {turn : Stimulus} {rest : List Stimulus} (h : s.sched = turn :: rest) :
    step s = exec (fetch turn { s with sched := rest }) { s with sched := rest } := by
  rw [step_cons h, fetch_sched s turn rest]

/-- EXPIRE and TICK make one firing. -/
theorem run_expire_tick {rest : List Stimulus} (hsched : s.sched = .expire :: .tick :: rest) :
    ∃ u : State, (∀ m, Host.Core.run core (m + 2) s = Host.Core.run core m u) ∧
      u.layerCursor.val = (s.layerCursor.val + 1) % 8 ∧ u.tickPending = false ∧ u.sched = rest ∧
      u.pz = pzPattern s.layerCursor := by
  have hexpire : step s = .next ({ s with sched := .tick :: rest }.setTickPending true) :=
    (step_of_sched hsched).trans exec_fetch_expire
  have htick : step ({ s with sched := .tick :: rest }.setTickPending true) =
      .next (fire ({ s with sched := rest }.setTickPending true)) := (step_of_sched rfl).trans exec_fetch_tick
  refine ⟨_, fun m => (run_succ hexpire).trans (run_succ htick), ?_, fire_tickPending _, fire_sched _, ?_⟩
  · rw [fire_layerCursor]
    rfl
  · rw [fire_pz, layerSelect_eq_pattern]
    rfl

/-- Settles O40: by induction, the first firing taken off. -/
theorem firingsCycleThroughTheLayers : Obligations.FiringsCycleThroughTheLayers := by
  intro k
  induction k with
  | zero =>
    intro s rest hidle hsched
    exact ⟨s, run_zero, (Nat.mod_eq_of_lt s.layerCursor.isLt).symm, hidle, hsched, fun _ hpos => absurd hpos (by simp)⟩
  | succ k ih =>
    intro s rest hidle hsched
    obtain ⟨u, hfirst, hlayer, hidle, hsched, hpainted⟩ := run_expire_tick hsched
    obtain ⟨t, hrun, hcursor, hidle, hsched, hpz⟩ := ih u rest hidle hsched
    rw [hlayer] at hcursor hpz
    refine ⟨t, (hfirst (2 * k)).trans hrun, by omega, hidle, hsched, fun z _ hz => ?_⟩
    rcases Nat.eq_zero_or_pos k with rfl | hpos
    · cases hrun
      obtain rfl : z = s.layerCursor := Fin.ext (hz.trans (Nat.mod_eq_of_lt s.layerCursor.isLt))
      exact hpainted
    · exact hpz z hpos (by omega)

end Sys2Proof.Machine
end

section
/-!
PROOFS. Scheduled turns: a quiescent block, a delivered burst, and a stored frame popped byte by byte (70_reset R244, 43_fifo
R186, 42_ingest R168).
-/

namespace Sys2Proof.Safety

open Sys2Proof Sys2Proof.Machine

variable {s t u : State} {b : Byte}

/-! ### Quiescence -/

/-- With no byte stored, delivered or awaited, a turn does nothing, requests a firing or fires. -/
theorem exec_fetch_of_quiescent {turn : Stimulus} (h : Quiescent s) (hrx : ∀ b, turn ≠ .rx true b)
    (hrst : turn ≠ .rst true) :
    ∃ t, exec (fetch turn s) s = .next t ∧ (t = s ∨ t = s.setTickPending true ∨ t = fire s) := by
  obtain ⟨hempty, hfree⟩ := h
  cases turn with
  | rx v b =>
    cases v with
    | false => exact ⟨s, exec_fetch_rx_false, .inl rfl⟩
    | true => exact absurd rfl (hrx b)
  | consume => exact ⟨s, exec_fetch_consume_empty hfree hempty, .inl rfl⟩
  | tick =>
    refine ⟨_, exec_fetch_tick, ?_⟩
    cases s.tickPending with
    | false => exact .inl rfl
    | true => exact .inr (.inr rfl)
  | expire => exact ⟨_, exec_fetch_expire, .inr (.inl rfl)⟩
  | rst r =>
    cases r with
    | false => exact ⟨s, exec_fetch_rst false, .inl rfl⟩
    | true => exact absurd rfl hrst

/-- Settles O58: no firing of a quiescent state commits. -/
theorem quiescentStateStaysQuiescent : Obligations.QuiescentStateStaysQuiescent := by
  intro s turn rest hq hsched hrx hrst
  have hq' : Quiescent { s with sched := rest } := hq
  obtain ⟨t, hexec, ht⟩ := exec_fetch_of_quiescent hq' hrx hrst
  refine ⟨t, (step_of_sched hsched).trans hexec, ?_⟩
  rcases ht with rfl | rfl | rfl
  · exact ⟨hq, rfl, rfl, rfl, ⟨rfl, rfl⟩, ⟨rfl, rfl, rfl, rfl⟩, rfl⟩
  · exact ⟨hq, rfl, rfl, rfl, ⟨rfl, rfl⟩, ⟨rfl, rfl, rfl, rfl⟩, rfl⟩
  · rw [fire_of_not_commits (s := { s with sched := rest }) (by simp [commits, hq.2])]
    exact ⟨hq, rfl, rfl, rfl, ⟨rfl, rfl⟩, ⟨rfl, rfl, rfl, rfl⟩, rfl⟩

/-! ### A burst of delivered bytes -/

/-- As long as there is room, delivered bytes are stored in order and nothing is put out. -/
theorem run_deliver {bs : List Byte} {rest : List Stimulus} (h : FifoInv s)
    (hroom : s.count + bs.length ≤ s.cfg.capacity) (hsched : s.sched = bs.map (Stimulus.rx true) ++ rest) :
    ∃ t : State, Host.Core.run core bs.length s = .next t ∧ storedCells t = storedCells s ++ bs.map some ∧
      t.count = s.count + bs.length ∧ t.cfg = s.cfg ∧ t.dropCnt = s.dropCnt ∧ t.trace = s.trace ∧ t.sched = rest := by
  induction bs generalizing s with
  | nil => exact ⟨s, run_zero, (List.append_nil _).symm, rfl, rfl, rfl, rfl, hsched⟩
  | cons b bs ih =>
    rw [List.length_cons] at hroom
    have hone : s.count < s.cfg.capacity := by omega
    have h' : FifoInv { s with sched := bs.map (Stimulus.rx true) ++ rest } := h.congr rfl rfl rfl rfl rfl
    have hstep : step s = .next ({ s with sched := bs.map (Stimulus.rx true) ++ rest }.pushed b) :=
      (step_of_sched hsched).trans (exec_fetch_rx_room hone (h.wrIdx_eq ▸ Nat.mod_lt _ h.capacity_pos))
    obtain ⟨t, hrun, hcells, hcount, hcfg, hdrop, htrace, hrest⟩ :=
      ih (h'.pushed (b := b) hone) (show s.count + 1 + bs.length ≤ s.cfg.capacity by omega) rfl
    refine ⟨t, (run_succ hstep).trans hrun, ?_, ?_, hcfg, hdrop, htrace, hrest⟩
    · rw [hcells, storedCells_pushed h' hone, List.append_assoc]
      rfl
    · rw [hcount, List.length_cons]
      exact Nat.add_right_comm ..

/-- Settles O21: the burst fills the FIFO, and the byte after it finds it full. -/
theorem fifoHoldsCapacityBytesThenDrops : Obligations.FifoHoldsCapacityBytesThenDrops := by
  intro s bs b rest hs hempty hlen hsched
  obtain ⟨t, hrun, hcells, hcount, hcfg, hdrop, htrace, hrest⟩ := run_deliver hs.fifo (by omega) hsched
  have hfull : t.count = t.cfg.capacity := by rw [hcount, hcfg]; omega
  rw [storedCells_empty hempty, List.nil_append] at hcells
  have hstep : step t = .next ({ t with sched := rest }.countDrop.emit (.drop b)) :=
    (step_of_sched hrest).trans (exec_fetch_rx_full hfull)
  refine ⟨{ t with sched := rest }.countDrop.emit (.drop b), ?_, hcells, State.full_eq_true_iff.mpr hfull, ?_,
    congrArg (· ++ [Event.drop b]) htrace, rfl⟩
  · rw [← hlen, run_append hrun, run_succ hstep, run_zero]
  · rw [← hdrop]
    exact satSucc16_toNat _

/-! ### A frame on its way through the back bank -/

/-- Are the first rows of the back bank, layer by layer, the bytes of a list? -/
def RowsHold (l : List Byte) (u : State) : Prop :=
  ∀ z y : Fin 8, 8 * z.val + y.val < l.length → l[8 * z.val + y.val]? = some (u.backRow z y)

/-- Is the front bank, in its role and every row, that of another state? -/
def SameFront (s u : State) : Prop := u.frontSel = s.frontSel ∧ ∀ z y, u.frontRow z y = s.frontRow z y

/-- How far a frame `d`, begun in state `s`, has come: the bytes popped since, the number of swaps committed since, and what
the state shows of it. -/
inductive FrameStage (s : State) (d : List Byte) : List Byte → Nat → State → Prop
  | waiting {u : State} (idle : u.ingState = .idle) (free : u.swapPending = false) (front : SameFront s u) :
      FrameStage s d [] 0 u
  | filling {u : State} {l : List Byte} (part : l <+: d) (receiving : u.ingState = .receiving)
      (free : u.swapPending = false) (count : u.rcvCnt.val = l.length) (rows : RowsHold l u) (front : SameFront s u) :
      FrameStage s d (Config.sof :: l) 0 u
  | stored {u : State} (idle : u.ingState = .idle) (pending : u.swapPending = true) (rows : RowsHold d u)
      (front : SameFront s u) : FrameStage s d (Config.sof :: d) 0 u
  | shown {u : State} (idle : u.ingState = .idle) (free : u.swapPending = false)
      (rows : ∀ z y : Fin 8, d[8 * z.val + y.val]? = some (u.frontRow z y)) (zero : ∀ z y, u.backRow z y = 0x00#8) :
      FrameStage s d (Config.sof :: d) 1 u

/-- The fields a frame is seen in: the decoder, the pending swap, the roles and the grid. -/
structure SameFrame (s t : State) : Prop where
  decoder : SameDecoder s t
  swap : SameSwap s t
  grid : t.grid = s.grid

theorem SameFrame.backRow (h : SameFrame s t) (z y : Fin 8) : t.backRow z y = s.backRow z y := by
  rw [State.backRow, State.backSel, h.swap.1, h.grid]
  rfl

theorem SameFrame.frontRow (h : SameFrame s t) (z y : Fin 8) : t.frontRow z y = s.frontRow z y := by
  rw [State.frontRow, h.swap.1, h.grid]
  rfl

theorem SameFront.trans (h : SameFront s t) (h' : SameFront t u) : SameFront s u :=
  ⟨h'.1.trans h.1, fun z y => (h'.2 z y).trans (h.2 z y)⟩

theorem SameFrame.front (h : SameFrame s t) : SameFront s t := ⟨h.swap.1, h.frontRow⟩

theorem RowsHold.congr {l : List Byte} (h : RowsHold l s) (hf : SameFrame s t) : RowsHold l t := fun z y hpos => by
  rw [hf.backRow]
  exact h z y hpos

variable {d p : List Byte} {k : Nat}

/-- What leaves the decoder, the pending swap, the roles and the grid alone leaves the frame where it is. -/
theorem FrameStage.congr (h : FrameStage s d p k t) (hf : SameFrame t u) : FrameStage s d p k u := by
  obtain ⟨hing, hrcv⟩ := hf.decoder
  obtain ⟨-, hpending⟩ := hf.swap
  cases h with
  | waiting idle free front => exact .waiting (hing.trans idle) (hpending.trans free) (front.trans hf.front)
  | filling part receiving free count rows front =>
    exact .filling part (hing.trans receiving) (hpending.trans free) (hrcv ▸ count) (rows.congr hf) (front.trans hf.front)
  | stored idle pending rows front =>
    exact .stored (hing.trans idle) (hpending.trans pending) (rows.congr hf) (front.trans hf.front)
  | shown idle free rows zero =>
    exact .shown (hing.trans idle) (hpending.trans free) (fun z y => (rows z y).trans (by rw [hf.frontRow]))
      fun z y => (hf.backRow z y).trans (zero z y)

theorem consumed_sameFront (u : State) (b : Byte) : SameFront u (u.consumed b) := by
  refine ⟨State.consumed_frontSel u b, fun z y => ?_⟩
  unfold State.consumed
  split
  · split <;> rfl
  · split <;> exact u.advanceRead.writeRow_frontRow ..

/-- A row written at the position of the next byte extends the bytes held. -/
theorem RowsHold.writeRow {l : List Byte} (h : RowsHold l u) {z y : Fin 8} (hpos : 8 * z.val + y.val = l.length) :
    RowsHold (l ++ [b]) (u.writeRow z y b) := by
  intro z' y' hlt
  rw [List.length_append, List.length_singleton] at hlt
  rw [State.writeRow_backRow]
  split
  · next heq =>
    obtain ⟨rfl, rfl⟩ := heq
    rw [hpos, List.getElem?_concat_length]
  · next hne =>
    have hlt : 8 * z'.val + y'.val < l.length := by
      have : ¬ (z.val = z'.val ∧ y.val = y'.val) := by simpa [Fin.ext_iff] using hne
      omega
    rw [List.getElem?_append_left hlt]
    exact h z' y' hlt

/-- A popped byte takes the frame one byte further. -/
theorem FrameStage.consumed (hd : d.length = 64) (h : FrameStage s d p k u) (hp : p ++ [b] <+: Config.sof :: d) :
    FrameStage s d (p ++ [b]) k (u.consumed b) := by
  have hfront := consumed_sameFront u b
  cases h with
  | waiting idle free front =>
    obtain ⟨rfl, -⟩ := List.cons_prefix_cons.mp hp
    have e : u.consumed Config.sof = u.advanceRead.setDecoder .receiving 0 := by simp [State.consumed, idle]
    rw [e] at hfront ⊢
    exact .filling List.nil_prefix rfl free rfl (fun _ _ hlt => absurd hlt (Nat.not_lt_zero _)) (front.trans hfront)
  | @filling _ l part receiving free count rows front =>
    have hl : l ++ [b] <+: d := (List.cons_prefix_cons.mp hp).2
    cases hlast : u.last with
    | true =>
      have h63 : u.rcvCnt.val = 63 := State.last_eq_true_iff.mp hlast
      have e : u.consumed b = ((u.advanceRead.writeRow 7 7 b).swapRequest).setDecoder .idle 0 := by
        simp [State.consumed, receiving, hlast]
      obtain rfl : l ++ [b] = d := hl.eq_of_length (by simp [hd, ← count, h63])
      rw [e] at hfront ⊢
      exact .stored rfl rfl (RowsHold.writeRow (u := u.advanceRead) rows (h63.symm.trans count)) (front.trans hfront)
    | false =>
      have hmore : u.rcvCnt.val < 63 := by
        have hne : u.rcvCnt.val ≠ 63 := fun h => by simp [State.last_eq_true_iff.mpr h] at hlast
        omega
      have e : u.consumed b = (u.advanceRead.writeRow (payloadLayer u.rcvCnt) (payloadRow u.rcvCnt) b).setDecoder
          .receiving (nextReceived u.rcvCnt) := by simp [State.consumed, receiving, hlast]
      rw [e] at hfront ⊢
      have hpos := (payload_position_iff (n := u.rcvCnt)).mp ⟨rfl, rfl⟩
      refine FrameStage.filling (l := l ++ [b]) hl rfl free ?_ (RowsHold.writeRow (u := u.advanceRead) rows (hpos.symm.trans count))
        (front.trans hfront)
      rw [State.setDecoder_rcvCnt, nextReceived_val hmore, count, List.length_append, List.length_singleton]
  | stored | shown => exact absurd hp.length_le (by simp)

/-- Until the last byte of the frame is popped the CONSUMER is not held. -/
theorem FrameStage.free (h : FrameStage s d p k u) (hp : p ≠ Config.sof :: d) : u.swapPending = false := by
  cases h with
  | waiting _ free | filling _ _ free | shown _ free => exact free
  | stored => exact absurd rfl hp

/-- A frame of 64 bytes wholly popped and not committed is stored. -/
theorem FrameStage.stored_of_zero (hd : d.length = 64) (h : FrameStage s d (Config.sof :: d) 0 u) :
    (∀ z y : Fin 8, d[8 * z.val + y.val]? = some (u.backRow z y)) ∧ u.swapPending = true ∧ u.ingState = .idle ∧
      SameFront s u := by
  cases h with
  | filling _ _ _ count => exact absurd u.rcvCnt.isLt (by omega)
  | stored idle pending rows front => exact ⟨fun z y => rows z y (by omega), pending, idle, front⟩

theorem storedCells_length (s : State) : (storedCells s).length = s.count := by simp [storedCells]

/-- The head of a FIFO that holds a byte. -/
theorem head_of_storedCells {c : Option Byte} {l : List (Option Byte)} (h : FifoInv s) (hcells : storedCells s = c :: l) :
    s.count ≠ 0 ∧ s.mem.read s.rdIdx = c ∧ storedCells s.advanceRead = l := by
  have hstored : s.count ≠ 0 := by rw [← storedCells_length, hcells]; exact Nat.succ_ne_zero _
  rw [storedCells_advanceRead hstored h.rdIdx_lt] at hcells
  exact ⟨hstored, List.cons.inj hcells⟩

/-- The rest of a frame that is stored is popped by as many turns of the CONSUMER. -/
theorem run_pops {r : List Byte} {younger : List (Option Byte)} {rest : List Stimulus} (hd : d.length = 64)
    (h : FrameStage s d p k u) (hfifo : FifoInv u) (hp : p ++ r = Config.sof :: d)
    (hcells : storedCells u = r.map some ++ younger) (hsched : u.sched = List.replicate r.length .consume ++ rest) :
    ∃ t : State, Host.Core.run core r.length u = .next t ∧ FrameStage s d (Config.sof :: d) k t ∧
      storedCells t = younger ∧ t.trace = u.trace ∧ t.sched = rest := by
  induction r generalizing p u with
  | nil => exact ⟨u, run_zero, (List.append_nil p ▸ hp) ▸ h, hcells, rfl, hsched⟩
  | cons b r ih =>
    let v : State := { u with sched := List.replicate r.length .consume ++ rest }
    have hv : FrameStage s d p k v := h.congr ⟨⟨rfl, rfl⟩, ⟨rfl, rfl⟩, rfl⟩
    have hvfifo : FifoInv v := hfifo.congr rfl rfl rfl rfl rfl
    obtain ⟨hstored, hhead, hleft⟩ := head_of_storedCells hvfifo hcells
    have hnext : (p ++ [b]) ++ r = Config.sof :: d := by rw [List.append_assoc]; exact hp
    have hfree : v.swapPending = false := hv.free fun hdone => by simp [hdone] at hp
    have hstep : step u = .next (v.consumed b) :=
      (step_of_sched hsched).trans (exec_fetch_consume hfree hstored hvfifo.rdIdx_lt hhead)
    obtain ⟨t, hrun, hstage, hyounger, htrace, hrest⟩ :=
      ih (hv.consumed hd ⟨r, hnext⟩) (fifoInv_consumed hvfifo hstored) hnext (storedCells_consumed.trans hleft)
        (State.consumed_sched v b)
    exact ⟨t, (run_succ hstep).trans hrun, hstage, hyounger, htrace.trans (State.consumed_trace v b), hrest⟩

/-- Settles O33: the marker and the 64 bytes are popped one after the other, and no firing commits. -/
theorem completeFrameFillsTheBackBank : Obligations.CompleteFrameFillsTheBackBank := by
  intro s d younger rest hs hidle hfree hd hcells hsched
  have hlen : (Config.sof :: d).length = 65 := by rw [List.length_cons, hd]
  have hwaiting : FrameStage s d [] 0 s := .waiting hidle hfree ⟨rfl, fun _ _ => rfl⟩
  obtain ⟨t, hrun, hstage, hyounger, htrace, hrest⟩ :=
    run_pops hd hwaiting hs.fifo rfl hcells (rest := rest) (by rw [hlen, hsched])
  obtain ⟨hrows, hpending, hidle', hfront, hsame⟩ := hstage.stored_of_zero hd
  exact ⟨t, hlen ▸ hrun, hrows, hpending, hidle', hfront, hsame, hyounger, htrace, hrest⟩

end Sys2Proof.Safety
end

section
/-!
PROOFS. Any run without RESET, read off the operations it performs: the wait for a swap, a refresh pass, and a frame on its
way to the front bank (40_grid_swap R123 to R126, 41_scanner R148 to R150, 42_ingest R168).
-/

namespace Sys2Proof.Safety

open Sys2Proof Sys2Proof.Machine

variable {s t u v : State} {i : Instr} {ops : List Instr}

/-! ### Invariants over what a run has performed -/

/-- From a well-formed state a run completes, and what every effect keeps as the performed operations grow holds at its end. -/
theorem run_invariant_from {M : List Instr → State → Prop}
    (hturn : ∀ ops u l m, M ops u → M ops { u with sched := l, freeCount := m }) (n : Nat) (ops : List Instr)
    (hs : StateInv s) (hM : M ops s)
    (heffect : ∀ done i u v, done ++ [i] <+: ops ++ performed n s → StateInv u → M done u → Effect u i v →
      M (done ++ [i]) v) :
    ∃ t : State, Host.Core.run core n s = .next t ∧ M (ops ++ performed n s) t := by
  induction n generalizing s ops with
  | zero => exact ⟨s, run_zero, by rwa [performed, List.append_nil]⟩
  | succ n ih =>
    obtain ⟨t, hstep⟩ := stepNeverStops s hs
    rw [performed_succ hstep] at heffect ⊢
    rw [List.append_cons] at heffect ⊢
    rw [run_succ hstep]
    have hinv : StateInv (nextTurn s).2 := by rw [nextTurn_state]; exact hs.turn _ _
    have hM : M ops (nextTurn s).2 := by rw [nextTurn_state]; exact hturn _ _ _ _ hM
    exact ih _ (stepKeepsTheInvariants s t hs hstep)
      (heffect _ _ _ _ (List.prefix_append ..) hinv hM (step_effect hstep)) heffect

theorem run_invariant {M : List Instr → State → Prop} {n : Nat} (hs : StateInv s) (hM : M [] s)
    (hturn : ∀ ops u l m, M ops u → M ops { u with sched := l, freeCount := m })
    (heffect : ∀ done i u v, done ++ [i] <+: performed n s → StateInv u → M done u → Effect u i v → M (done ++ [i]) v) :
    ∃ t : State, Host.Core.run core n s = .next t ∧ M (performed n s) t :=
  run_invariant_from hturn n [] hs hM heffect

/-- The last operation of a beginning of a list without RESET is not RESET. -/
theorem ne_reset_of_prefix {all : List Instr} (h : ops ++ [i] <+: all) (hall : .reset ∉ all) : i ≠ .reset :=
  fun hi => hall (h.subset (by simp [hi]))

end Sys2Proof.Safety

namespace Sys2Proof.Machine

open Sys2Proof Sys2Proof.Safety

variable {s t u : State} {i : Instr}

/-! ### What firings and other operations do to a run's observables -/

theorem isFiring_of_isNoStep (h : isNoStep i = true) : isFiring i = false := by
  cases i with
  | tick | tickWrap | tickWrapSwap => cases h
  | _ => rfl

theorem Effect.of_isFiring (e : Effect s i t) (h : isFiring i = true) :
    t = fire s ∧ (commits s = true ↔ i = .tickWrapSwap) := by
  cases e with
  | firing _ _ _ hc => exact ⟨rfl, hc⟩
  | none _ hkind => exact absurd h (by simp [isFiring_of_isNoStep hkind])
  | push | pushDrop | sof | ign | data | dataLast | expire | reset => cases h

/-- An operation that is no firing keeps the cursor and a pending swap, and puts out drops alone. -/
theorem Effect.of_not_isFiring (e : Effect s i t) (h : isFiring i = false) (hreset : i ≠ .reset) :
    t.layerCursor = s.layerCursor ∧ (s.swapPending = true → t.swapPending = true) ∧
      ∃ new, t.trace = s.trace ++ new ∧ ∀ ev ∈ new, ev.isDrop = true := by
  cases e with
  | none | push | sof | ign | data | expire => exact ⟨rfl, id, [], (List.append_nil _).symm, nofun⟩
  | dataLast => exact ⟨rfl, fun _ => rfl, [], (List.append_nil _).symm, nofun⟩
  | pushDrop b => exact ⟨rfl, id, [.drop b], rfl, by simp [Event.isDrop]⟩
  | firing _ _ hkind => exact absurd hkind (by simp [h])
  | reset => exact absurd rfl hreset

theorem ne_tickWrapSwap_of_not_isFiring (h : isFiring i = false) : i ≠ .tickWrapSwap := by
  rintro rfl
  cases h

/-- An operation that neither pops nor commits leaves the frame alone. -/
theorem Effect.sameFrame (e : Effect s i t) (hpop : poppedByte i = Option.none) (hcommit : i ≠ .tickWrapSwap)
    (hreset : i ≠ .reset) : SameFrame s t := by
  cases e with
  | none | push | pushDrop | expire => exact ⟨⟨rfl, rfl⟩, ⟨rfl, rfl⟩, rfl⟩
  | sof | ign | data | dataLast => cases hpop
  | firing _ _ _ hc =>
    have hc : commits s = false := Bool.eq_false_iff.mpr fun h => hcommit (hc.mp h)
    rw [fire_of_not_commits hc]
    exact ⟨⟨rfl, rfl⟩, ⟨rfl, rfl⟩, rfl⟩
  | reset => exact absurd rfl hreset

/-- An operation that pops nothing leaves the stored bytes in their place, with younger ones behind them. -/
theorem Effect.storedCells_of_no_pop (e : Effect s i t) (h : FifoInv s) (hpop : poppedByte i = Option.none)
    (hreset : i ≠ .reset) : t.rdIdx = s.rdIdx ∧ ∃ younger, storedCells t = storedCells s ++ younger := by
  cases e with
  | none | pushDrop | expire => exact ⟨rfl, [], (List.append_nil _).symm⟩
  | push b hroom => exact ⟨rfl, [some b], storedCells_pushed h hroom⟩
  | sof | ign | data | dataLast => cases hpop
  | firing =>
    exact ⟨fire_rdIdx s, [], (storedCells_congr (fire_count s) (fire_mem s) (fire_rdIdx s) (fire_cfg s)).trans
      (List.append_nil _).symm⟩
  | reset => exact absurd rfl hreset

/-- While a swap is pending nothing is popped. -/
theorem Effect.no_pop_of_pending (e : Effect s i t) (h : s.swapPending = true) : poppedByte i = Option.none := by
  cases hpop : poppedByte i with
  | none => rfl
  | some b => exact absurd (e.of_poppedByte hpop).1 (by simp [h])

end Sys2Proof.Machine

namespace Sys2Proof.Safety

open Sys2Proof Sys2Proof.Machine

variable {s t u v : State} {i : Instr} {ops : List Instr}

/-- The decoder's position and the FIFO's stored bytes as a state had them, but for younger bytes. -/
def Held (s u : State) : Prop :=
  SameDecoder s u ∧ u.rdIdx = s.rdIdx ∧ ∃ younger, storedCells u = storedCells s ++ younger

theorem Held.trans (h : Held s t) (h' : Held t u) : Held s u := by
  obtain ⟨⟨hing, hrcv⟩, hrd, y, hy⟩ := h
  obtain ⟨⟨hing', hrcv'⟩, hrd', y', hy'⟩ := h'
  exact ⟨⟨hing'.trans hing, hrcv'.trans hrcv⟩, hrd'.trans hrd, y ++ y', by rw [hy', hy, List.append_assoc]⟩

theorem held_of_pending (e : Effect s i t) (h : FifoInv s) (hpending : s.swapPending = true)
    (hreset : i ≠ .reset) : Held s t := by
  have hpop := e.no_pop_of_pending hpending
  have hcells := e.storedCells_of_no_pop h hpop hreset
  refine ⟨?_, hcells⟩
  by_cases hfiring : isFiring i = true
  · rw [(e.of_isFiring hfiring).1]
    exact ⟨fire_ingState s, fire_rcvCnt s⟩
  · exact (e.sameFrame hpop (ne_tickWrapSwap_of_not_isFiring (by simpa using hfiring)) hreset).decoder

/-! ### The wait for a swap (40_grid_swap R126) -/

theorem countP_concat (p : Instr → Bool) (ops : List Instr) (i : Instr) :
    (ops ++ [i]).countP p = ops.countP p + (p i).toNat := by
  cases h : p i <;> simp [h]

/-- A swap pending in `s`, after some operations: still pending, or committed by the firing at cursor 7. -/
inductive SwapStage (s : State) (ops : List Instr) (u : State) : Prop
  | pending (wait : s.layerCursor.val + ops.countP isFiring < 8)
      (cursor : u.layerCursor.val = s.layerCursor.val + ops.countP isFiring) (pending : u.swapPending = true)
      (frontSel : u.frontSel = s.frontSel) (grid : u.grid = s.grid) (held : Held s u)
  | committed (wait : s.layerCursor.val + ops.countP isFiring = 8) (frontSel : u.frontSel = otherBank s.frontSel)
      (rows : ∀ z y, u.frontRow z y = s.backRow z y)
      (atOnce : ops.getLast?.any isFiring = true →
        u.swapPending = false ∧ (∀ z y, u.backRow z y = 0x00#8) ∧ Held s u)

theorem SwapStage.turn (h : SwapStage s ops u) (l : List Stimulus) (m : Nat) :
    SwapStage s ops { u with sched := l, freeCount := m } := by
  cases h with
  | pending wait cursor pending frontSel grid held => exact .pending wait cursor pending frontSel grid held
  | committed wait frontSel rows atOnce => exact .committed wait frontSel rows atOnce

theorem fire_frontRow_of_commits (hc : commits s = true) (z y : Fin 8) : (fire s).frontRow z y = s.backRow z y := by
  rw [State.frontRow, fire_frontSel, if_pos hc, fire_grid, if_pos hc]
  exact (Grid.row_clear ..).trans (if_neg (otherBank_ne s.frontSel).symm)

theorem getLast?_any_concat (p : Instr → Bool) (ops : List Instr) (i : Instr) :
    (ops ++ [i]).getLast?.any p = p i := by simp

/-- A firing of the wait below cursor 7 leaves the swap pending; the one at cursor 7 commits it, and no other follows. -/
theorem SwapStage.of_isFiring (h : SwapStage s ops u) (hu : FifoInv u) (e : Effect u i v) (hreset : i ≠ .reset)
    (hfiring : isFiring i = true) (hbound : s.layerCursor.val + (ops ++ [i]).countP isFiring ≤ 8) :
    SwapStage s (ops ++ [i]) v := by
  have hcount : (ops ++ [i]).countP isFiring = ops.countP isFiring + 1 := by
    rw [countP_concat, hfiring, Bool.toNat_true]
  cases h with
  | pending wait cursor pending frontSel grid held =>
    have hheld := held.trans (held_of_pending e hu pending hreset)
    obtain ⟨rfl, -⟩ := e.of_isFiring hfiring
    by_cases hc : commits u = true
    · have htop : u.layerCursor.val = 7 := congrArg Fin.val ((commits_iff u).mp hc).1
      refine .committed (by omega) ?_ (fun z y => ?_) fun _ => ⟨?_, fire_backRow_of_commits hc, hheld⟩
      · rw [fire_frontSel, if_pos hc, frontSel]
      · rw [fire_frontRow_of_commits hc, State.backRow, State.backSel, frontSel, grid]
        rfl
      · rw [fire_swapPending, if_pos hc]
    · have hbelow : u.layerCursor.val ≠ 7 := fun h7 => hc ((commits_iff u).mpr ⟨Fin.ext h7, pending⟩)
      have hnext : (nextLayer u.layerCursor).val = (u.layerCursor.val + 1) % 8 := rfl
      refine .pending (by omega) ?_ ?_ ?_ ?_ hheld
      · rw [fire_layerCursor]
        omega
      · rw [fire_swapPending, if_neg hc, pending]
      · rw [fire_frontSel, if_neg hc, frontSel]
      · rw [fire_grid, if_neg hc, grid]
  | committed wait => exact absurd hbound (by omega)

/-- Another operation leaves a pending swap pending, and a new front bank as it is. -/
theorem SwapStage.of_not_isFiring (h : SwapStage s ops u) (hu : FifoInv u) (e : Effect u i v) (hreset : i ≠ .reset)
    (hfiring : isFiring i = false) : SwapStage s (ops ++ [i]) v := by
  have hcount : (ops ++ [i]).countP isFiring = ops.countP isFiring := by
    rw [countP_concat, hfiring, Bool.toNat_false, Nat.add_zero]
  have hne := ne_tickWrapSwap_of_not_isFiring hfiring
  cases h with
  | pending wait cursor pending frontSel grid held =>
    have hsame := e.sameFrame (e.no_pop_of_pending pending) hne hreset
    refine .pending (hcount ▸ wait) ?_ (hsame.swap.2.trans pending) (hsame.swap.1.trans frontSel)
      (hsame.grid.trans grid) (held.trans (held_of_pending e hu pending hreset))
    rw [(e.of_not_isFiring hfiring hreset).1, hcount, cursor]
  | committed wait frontSel rows =>
    obtain ⟨hsel, hrows⟩ := e.keeps_front hne hreset
    refine .committed (hcount ▸ wait) (hsel.trans frontSel) (fun z y => (hrows z y).trans (rows z y)) fun hlast => ?_
    rw [getLast?_any_concat, hfiring] at hlast
    cases hlast

/-- Settles O42: the number of firings says which stage the wait has reached. -/
theorem pendingSwapCommitsAtTheWrap : Obligations.PendingSwapCommitsAtTheWrap := by
  intro n k s hs hpending hreset hk hbound
  have hstart : SwapStage s [] s :=
    .pending s.layerCursor.isLt rfl hpending rfl rfl ⟨⟨rfl, rfl⟩, rfl, [], (List.append_nil _).symm⟩
  obtain ⟨t, hrun, hstage⟩ := run_invariant (n := n) hs hstart (fun _ _ l m h => h.turn l m)
    fun done i u v hdone hu h e => by
      have hne := ne_reset_of_prefix hdone hreset
      have hle : (done ++ [i]).countP isFiring ≤ (performed n s).countP isFiring := hdone.sublist.countP_le
      cases hfiring : isFiring i with
      | false => exact h.of_not_isFiring hu.fifo e hne hfiring
      | true => exact h.of_isFiring hu.fifo e hne hfiring (by omega)
  refine ⟨t, hrun, ?_⟩
  cases hstage with
  | pending wait _ pending frontSel grid held =>
    obtain ⟨hdecoder, hrd, hcells⟩ := held
    exact ⟨fun _ => ⟨pending, frontSel, grid, hdecoder, hrd, hcells⟩, fun h8 => absurd wait (by omega)⟩
  | committed wait frontSel rows atOnce =>
    refine ⟨fun hlt => absurd wait (by omega), fun _ => ⟨frontSel, rows, fun hlast => ?_⟩⟩
    obtain ⟨hdone, hzero, hdecoder, hrd, hcells⟩ := atOnce hlast
    exact ⟨hdone, hzero, hdecoder, hrd, hcells⟩

end Sys2Proof.Safety
end

section
/-!
PROOFS. What a run without RESET puts out over a refresh pass, and a frame popped in such a run (40_grid_swap R123, 42_ingest
R168).
-/

namespace Sys2Proof.Safety

open Sys2Proof Sys2Proof.Machine

variable {s u v : State} {i : Instr} {ops : List Instr}

/-! ### A refresh pass (40_grid_swap R123) -/

/-- Is a list what a run from `s` to `u` has put out besides drops? -/
def PutOut (s u : State) (l : List Event) : Prop :=
  ∃ new, u.trace = s.trace ++ new ∧ new.filter (fun e => !e.isDrop) = l

theorem PutOut.append {l new : List Event} (h : PutOut s u l) (hv : v.trace = u.trace ++ new) :
    PutOut s v (l ++ new.filter fun e => !e.isDrop) := by
  obtain ⟨old, hold, rfl⟩ := h
  exact ⟨old ++ new, by rw [hv, hold, List.append_assoc], List.filter_append ..⟩

theorem PutOut.fire {l : List Event} (h : PutOut s u l) : PutOut s (fire u) (l ++ fireTrace u) := by
  have hnoDrop : (fireTrace u).filter (fun e => !e.isDrop) = fireTrace u := by
    refine List.filter_eq_self.mpr fun e he => ?_
    simpa using List.countP_eq_zero.mp (firingTrace_countP_isDrop ..) e he
  exact hnoDrop ▸ h.append (fire_trace u)

/-- The firings of the first `k` layers of a state's front bank, none of them a commit. -/
def painted (s : State) (k : Nat) : List Event :=
  ((List.finRange 8).take k).flatMap fun z => firingTrace s.cfg.zBlankOnEntry (s.frontRow z) z false

theorem painted_succ (s : State) {z : Fin 8} {k : Nat} (hk : z.val = k) :
    painted s (k + 1) = painted s k ++ firingTrace s.cfg.zBlankOnEntry (s.frontRow z) z false := by
  subst hk
  simp [painted, List.take_add_one]

/-- The firings of a whole pass: only the last one can be a commit. -/
theorem flatMap_firingTrace (s : State) (c : Bool) :
    (List.finRange 8).flatMap (fun z =>
        firingTrace s.cfg.zBlankOnEntry (fun y => s.grid.row s.frontSel z y) z (z == 7 && c)) =
      painted s 7 ++ firingTrace s.cfg.zBlankOnEntry (s.frontRow 7) 7 c := by
  have hsplit : List.finRange 8 = (List.finRange 8).take 7 ++ [7] := rfl
  have hbelow : ∀ z ∈ (List.finRange 8).take 7, (z == 7) = false := by decide
  rw [hsplit, List.flatMap_append, List.flatMap_singleton]
  refine congrArg (· ++ _) (List.flatMap_congr fun z hz => ?_)
  rw [hbelow z hz]
  rfl

/-- A pass that began in `s` at cursor 0, after some operations: some layers painted, or all 8. -/
inductive PassStage (s : State) (ops : List Instr) (u : State) : Prop
  | painting (few : ops.countP isFiring < 8) (cursor : u.layerCursor.val = ops.countP isFiring)
      (noCommit : .tickWrapSwap ∉ ops) (front : SameFront s u) (cfg : u.cfg = s.cfg)
      (pending : s.swapPending = true → u.swapPending = true) (putOut : PutOut s u (painted s (ops.countP isFiring)))
  | done (all : ops.countP isFiring = 8) (cursor : u.layerCursor = 0) (c : Bool) (commit : c = true ↔ .tickWrapSwap ∈ ops)
      (frontSel : u.frontSel = if c then otherBank s.frontSel else s.frontSel) (pending : s.swapPending = true → c = true)
      (putOut : PutOut s u (painted s 7 ++ firingTrace s.cfg.zBlankOnEntry (s.frontRow 7) 7 c))
      (last : ops.getLast?.any isFiring = true → u.swapPending = false ∧ u.tickPending = false)

theorem PassStage.turn (h : PassStage s ops u) (l : List Stimulus) (m : Nat) :
    PassStage s ops { u with sched := l, freeCount := m } := by
  cases h with
  | painting few cursor noCommit front cfg pending putOut =>
    exact .painting few cursor noCommit front cfg pending putOut
  | done all cursor c commit frontSel pending putOut last => exact .done all cursor c commit frontSel pending putOut last

/-- A firing of the pass puts out the rows that the front bank held at its start. -/
theorem fireTrace_of_sameFront (hfront : SameFront s u) (hcfg : u.cfg = s.cfg) :
    fireTrace u = firingTrace s.cfg.zBlankOnEntry (s.frontRow u.layerCursor) u.layerCursor (commits u) := by
  have hrow : u.frontRow u.layerCursor = s.frontRow u.layerCursor := funext fun y => hfront.2 _ y
  rw [fireTrace, hrow, hcfg]

/-- An operation that is no firing leaves the pass where it is. -/
theorem PassStage.of_not_isFiring (h : PassStage s ops u) (e : Effect u i v) (hfiring : isFiring i = false)
    (hreset : i ≠ .reset) : PassStage s (ops ++ [i]) v := by
  have hcount : (ops ++ [i]).countP isFiring = ops.countP isFiring := by
    rw [countP_concat, hfiring, Bool.toNat_false, Nat.add_zero]
  have hne := ne_tickWrapSwap_of_not_isFiring hfiring
  have hmem : .tickWrapSwap ∈ ops ++ [i] ↔ .tickWrapSwap ∈ ops := by simp [hne.symm]
  have hkept := e.keeps_front hne hreset
  obtain ⟨hcursor, hpending, new, htrace, hdrops⟩ := e.of_not_isFiring hfiring hreset
  have hput {l : List Event} (h : PutOut s u l) : PutOut s v l := by
    have hnone : new.filter (fun e => !e.isDrop) = [] := List.filter_eq_nil_iff.mpr fun ev hev => by simp [hdrops ev hev]
    simpa [hnone] using h.append htrace
  cases h with
  | painting few cursor noCommit front cfg pending putOut =>
    exact .painting (hcount ▸ few) (by rw [hcursor, hcount, cursor]) (mt hmem.mp noCommit) (front.trans hkept)
      (e.cfg_eq.trans cfg) (fun h => hpending (pending h)) (hcount ▸ hput putOut)
  | done all cursor c commit frontSel pending putOut last =>
    refine .done (hcount ▸ all) (hcursor.trans cursor) c (commit.trans hmem.symm) (hkept.1.trans frontSel) pending
      (hput putOut) fun hlast => ?_
    rw [getLast?_any_concat, hfiring] at hlast
    cases hlast

/-- A firing of the pass paints the next layer, and the last may commit. -/
theorem PassStage.of_isFiring (h : PassStage s ops u) (e : Effect u i v) (hfiring : isFiring i = true)
    (hbound : (ops ++ [i]).countP isFiring ≤ 8) : PassStage s (ops ++ [i]) v := by
  have hcount : (ops ++ [i]).countP isFiring = ops.countP isFiring + 1 := by
    rw [countP_concat, hfiring, Bool.toNat_true]
  obtain ⟨rfl, hi⟩ := e.of_isFiring hfiring
  cases h with
  | painting few cursor noCommit front cfg pending putOut =>
    have hput := putOut.fire
    rw [fireTrace_of_sameFront front cfg] at hput
    have hnext : (nextLayer u.layerCursor).val = (u.layerCursor.val + 1) % 8 := rfl
    have hmem : .tickWrapSwap ∈ ops ++ [i] ↔ commits u = true := by simp [hi, noCommit, eq_comm]
    rcases Nat.lt_succ_iff_lt_or_eq.mp few with hfew | htop
    · have hc : commits u = false := Bool.eq_false_iff.mpr fun hc => by
        have h7 := congrArg Fin.val ((commits_iff u).mp hc).1
        rw [cursor] at h7
        exact hfew.ne h7
      rw [hc, ← painted_succ s cursor] at hput
      refine .painting (by omega) ?_ (by simp [hmem, hc]) (front.trans ?_) ((fire_cfg u).trans cfg) ?_ (hcount ▸ hput)
      · rw [fire_layerCursor]
        omega
      · rw [fire_of_not_commits hc]
        exact ⟨rfl, fun _ _ => rfl⟩
      · rw [fire_swapPending, hc]
        exact pending
    · have h7 : u.layerCursor = 7 := Fin.ext (cursor.trans htop)
      have hc : commits u = u.swapPending := by simp [commits, State.wrap, h7]
      rw [h7, htop] at hput
      refine .done (by omega) ?_ (commits u) hmem.symm ?_ (fun h => hc.trans (pending h)) hput fun _ => ⟨?_, fire_tickPending u⟩
      · rw [fire_layerCursor, h7]
        rfl
      · rw [fire_frontSel, front.1]
      · rw [fire_swapPending, hc]
        cases u.swapPending <;> rfl
  | done all => exact absurd hbound (by omega)

/-- Settles O41: after 8 firings the pass is done. -/
theorem refreshPassShowsOneFrame : Obligations.RefreshPassShowsOneFrame := by
  intro n s hs hcursor hreset hcount
  have hstart : PassStage s [] s :=
    .painting (by decide) (congrArg Fin.val hcursor) List.not_mem_nil ⟨rfl, fun _ _ => rfl⟩ rfl id
      ⟨[], (List.append_nil _).symm, rfl⟩
  obtain ⟨t, hrun, hstage⟩ := run_invariant (n := n) hs hstart (fun _ _ l m h => h.turn l m)
    fun done i u v hdone hu h e => by
      cases hfiring : isFiring i with
      | false => exact h.of_not_isFiring e hfiring (ne_reset_of_prefix hdone hreset)
      | true => exact h.of_isFiring e hfiring (hcount ▸ hdone.sublist.countP_le)
  cases hstage with
  | painting few => exact absurd hcount few.ne
  | done _ cursor c commit frontSel pending putOut last =>
    obtain ⟨new, htrace, hnew⟩ := putOut
    exact ⟨t, new, c, hrun, htrace, hnew.trans (flatMap_firingTrace s c).symm, pending, commit, frontSel, cursor, last⟩

/-! ### A frame popped in a run (42_ingest R168) -/

variable {d p : List Byte} {k : Nat}

/-- A commit shows the stored frame; no other stage has a swap pending. -/
theorem FrameStage.commit (hd : d.length = 64) (h : FrameStage s d p k u) (hc : commits u = true) :
    FrameStage s d p (k + 1) (fire u) := by
  have hpending := ((commits_iff u).mp hc).2
  cases h with
  | waiting _ free | filling _ _ free | shown _ free => exact absurd hpending (by simp [free])
  | stored idle _ rows =>
    refine .shown ((fire_ingState u).trans idle) (by rw [fire_swapPending, if_pos hc]) (fun z y => ?_)
      (fire_backRow_of_commits hc)
    rw [fire_frontRow_of_commits hc]
    exact rows z y (by omega)

/-- One operation of a run: it pops the next byte, commits, or leaves the frame alone. -/
theorem FrameStage.effect (hd : d.length = 64) (e : Effect u i v) (hreset : i ≠ .reset)
    (hp : (ops ++ [i]).filterMap poppedByte <+: Config.sof :: d)
    (h : FrameStage s d (ops.filterMap poppedByte) (ops.count .tickWrapSwap) u) :
    FrameStage s d ((ops ++ [i]).filterMap poppedByte) ((ops ++ [i]).count .tickWrapSwap) v := by
  rw [List.filterMap_append] at hp ⊢
  rw [List.count_append]
  cases hpop : poppedByte i with
  | some b =>
    obtain ⟨-, -, -, -, rfl⟩ := e.of_poppedByte hpop
    have hne : i ≠ .tickWrapSwap := by rintro rfl; cases hpop
    have hone : [i].filterMap poppedByte = [b] := by simp [hpop]
    have hzero : [i].count .tickWrapSwap = 0 := by simp [hne]
    rw [hone] at hp ⊢
    rw [hzero]
    exact h.consumed hd hp
  | none =>
    have hnone : [i].filterMap poppedByte = [] := by simp [hpop]
    rw [hnone, List.append_nil]
    by_cases hcommit : i = .tickWrapSwap
    · obtain ⟨rfl, hi⟩ := e.of_isFiring (hcommit ▸ rfl)
      rw [hcommit]
      exact h.commit hd (hi.mpr hcommit)
    · have hzero : [i].count .tickWrapSwap = 0 := by simp [hcommit]
      rw [hzero]
      exact h.congr (e.sameFrame hpop hcommit hreset)

/-- An operation emits SWAP exactly when it commits. -/
theorem emits_swap (e : Effect u i v) (hreset : i ≠ .reset) :
    ∃ new, v.trace = u.trace ++ new ∧ new.countP Event.isSwap = [i].count .tickWrapSwap := by
  cases hfiring : isFiring i with
  | false =>
    obtain ⟨-, -, new, htrace, hdrops⟩ := e.of_not_isFiring hfiring hreset
    have hzero : [i].count .tickWrapSwap = 0 := by simp [ne_tickWrapSwap_of_not_isFiring hfiring]
    refine ⟨new, htrace, (List.countP_eq_zero.mpr fun ev hev => ?_).trans hzero.symm⟩
    have hdrop := hdrops ev hev
    cases ev with
    | drop => exact Bool.false_ne_true
    | port | hold | swap | tReload => cases hdrop
  | true =>
    obtain ⟨rfl, hi⟩ := e.of_isFiring hfiring
    refine ⟨fireTrace u, fire_trace u, (firingTrace_countP_isSwap ..).trans ?_⟩
    cases hc : commits u with
    | false => simp [mt hi.mpr (by simp [hc])]
    | true => simp [hi.mp hc]

/-- What a run from `s` has made of a frame, and the swaps it has put out. -/
def FrameRun (s : State) (d : List Byte) (ops : List Instr) (u : State) : Prop :=
  FrameStage s d (ops.filterMap poppedByte) (ops.count .tickWrapSwap) u ∧
    ∃ new, u.trace = s.trace ++ new ∧ new.countP Event.isSwap = ops.count .tickWrapSwap

theorem FrameRun.effect (hd : d.length = 64) (e : Effect u i v) (hreset : i ≠ .reset)
    (hp : (ops ++ [i]).filterMap poppedByte <+: Config.sof :: d) (h : FrameRun s d ops u) :
    FrameRun s d (ops ++ [i]) v := by
  obtain ⟨hstage, old, hold, hswaps⟩ := h
  obtain ⟨new, hnew, hswaps'⟩ := emits_swap e hreset
  refine ⟨hstage.effect hd e hreset hp, old ++ new, by rw [hnew, hold, List.append_assoc], ?_⟩
  rw [List.countP_append, List.count_append, hswaps, hswaps']

/-- A frame that a swap was committed for is shown. -/
theorem FrameStage.shown_of_pos (h : FrameStage s d p k u) (hk : 0 < k) :
    k = 1 ∧ (∀ z y : Fin 8, d[8 * z.val + y.val]? = some (u.frontRow z y)) ∧ u.swapPending = false ∧
      u.ingState = .idle ∧ ∀ z y, u.backRow z y = 0x00#8 := by
  cases h with
  | waiting | filling | stored => exact absurd hk (Nat.lt_irrefl 0)
  | shown idle free rows zero => exact ⟨rfl, rows, free, idle, zero⟩

/-- Settles O60: with the whole frame popped, the number of commits says whether it is stored or shown. -/
theorem poppedFrameIsStoredAndShown : Obligations.PoppedFrameIsStoredAndShown := by
  intro n s d hs hidle hfree hreset hpopped hd
  have hstart : FrameRun s d [] s :=
    ⟨.waiting hidle hfree ⟨rfl, fun _ _ => rfl⟩, [], (List.append_nil _).symm, rfl⟩
  obtain ⟨t, hrun, hstage, new, htrace, hswaps⟩ := run_invariant (n := n) hs hstart
    (fun _ _ _ _ h => ⟨h.1.congr ⟨⟨rfl, rfl⟩, ⟨rfl, rfl⟩, rfl⟩, h.2⟩)
    fun done i u v hdone _ h e => h.effect hd e (ne_reset_of_prefix hdone hreset) (hpopped ▸ hdone.filterMap poppedByte)
  rw [hpopped] at hstage
  refine ⟨t, new, hrun, htrace, fun hnone => ?_, fun hmem => ?_⟩
  · rw [List.count_eq_zero.mpr hnone] at hstage hswaps
    obtain ⟨hrows, hpending, hidle, hfront, hsame⟩ := hstage.stored_of_zero hd
    exact ⟨hrows, hpending, hidle, hfront, hsame, hswaps⟩
  · obtain ⟨hone, hrows, hdone, hidle, hzero⟩ := hstage.shown_of_pos (List.count_pos_iff.mpr hmem)
    exact ⟨hrows, hdone, hidle, hzero, hswaps.trans hone⟩

end Sys2Proof.Safety
end
